-- ==== Sys2Proof/Word.lean ====
section
/-!
DEFINITION. Word.lean: the values the 2416 counts in, the numbered resources of the manual's Conventions
(spec/00_scope.md), and arrays indexed by those numbers. House code has 128 values; a line code has at most 128.
-/
namespace Sys2Proof

/-- A house character (spec/00_scope.md, "House code"): one of the 128 values 0–127. -/
abbrev House := Fin 128

/-- A run of house characters, in the order in which they are sent or received. -/
abbrev Text := List House

/-- A code on a line or circuit: 0–31 where the width is 5, 0–127 where it is 7 (R7). -/
abbrev LineCode := Fin 128

/-- A capital letter A–Z, counted from 0. -/
abbrev Letter := Fin 26

abbrev LineNo := Fin 24
abbrev CircuitNo := Fin 16
abbrev BankNo := Fin 4
abbrev SlotNo := Fin 40
abbrev EntryNo := Fin 64
abbrev TakeNo := Fin 12
abbrev BlockNo := Fin 64

/-- A level or clearance, 0–3. -/
abbrev Level := Fin 4

/-- One more than `n`, staying at `top` once it is reached (spec/00_scope.md, "Counters"). -/
def satInc (top n : Nat) : Nat := min (n + 1) top

/-- A fixed array read and written at a number of its own range. -/
def put {α : Type} {n : Nat} (v : Vector α n) (i : Fin n) (x : α) : Vector α n := v.set i x

/-- The array with its member at `i` passed through `f`. -/
def modAt {α : Type} {n : Nat} (v : Vector α n) (i : Fin n) (f : α → α) : Vector α n := put v i (f v[i])

/-- The array whose member at `i` is `f i`. -/
def tabulate {α : Type} (n : Nat) (f : Fin n → α) : Vector α n := ⟨(List.ofFn f).toArray, by simp⟩

/-- Every member of the array passed through `f`. -/
def mapAll {α β : Type} {n : Nat} (v : Vector α n) (f : α → β) : Vector β n := tabulate n fun i => f v[i]

/-- A set of numbered things below `n`: member `i` is in the set when position `i` holds `true`. -/
abbrev BitSet (n : Nat) := Vector Bool n

abbrev CircuitSet := BitSet 16
abbrev TakeSet := BitSet 12

/-- The empty set. -/
def noneOf (n : Nat) : BitSet n := Vector.replicate n false

/-- The members of a set in ascending order. -/
def members {n : Nat} (v : BitSet n) : List (Fin n) := (List.finRange n).filter fun i => v[i]

/-- The set of the numbers in a list; a number listed twice is in it once. -/
def setOf {n : Nat} (l : List (Fin n)) : BitSet n := tabulate n fun i => decide (i ∈ l)

/-- The union of two sets. -/
def unionOf {n : Nat} (a b : BitSet n) : BitSet n := tabulate n fun i => a[i] || b[i]

end Sys2Proof
end

