-- ==== Sys2Proof/Syntax.lean ====
section
/-!
DEFINITION. Syntax.lean: the commands of the 2416, one constructor for each row of spec/opcode_table.json, in the
table's order. A command is an event at a block (a character on a line, a timer, a character sent) or a management
request. A request carries the operand tokens of its request line (R167), each token the characters as typed.
-/
namespace Sys2Proof

/-- The rows of spec/opcode_table.json. -/
inductive Instr where
  /-- RESET_ASSERTED (R195): the reset input goes low. -/
  | resetAsserted
  /-- RESET_RELEASED (R196): the reset input is released. -/
  | resetReleased
  /-- CHARACTER_ARRIVES (R8): the stop sample of a character on `line`. Bit `i` of `samples` is the sample at the middle
  of data element `i`, 1 for marking (R7); a line of width 5 takes the first five. `stopMarking` is the stop sample. -/
  | characterArrives (line : LineNo) (samples : BitVec 7) (stopMarking : Bool)
  /-- BREAK_WATCH_EXPIRES (R10). -/
  | breakWatchExpires (line : LineNo)
  /-- MARKING_INTERVAL_EXPIRES (R11). -/
  | markingIntervalExpires (line : LineNo)
  /-- SILENCE_TIMER_EXPIRES (R12). -/
  | silenceTimerExpires (line : LineNo)
  /-- UNKNOWN_REQUEST (R167): a request line whose verb is not in the catalogue. -/
  | unknownRequest (verb : Text) (ops : List Text)
  | line (ops : List Text)
  | linebank (ops : List Text)
  | circuit (ops : List Text)
  | bankkind (ops : List Text)
  | bankin (ops : List Text)
  | bankout (ops : List Text)
  | banksub (ops : List Text)
  | bankshift (ops : List Text)
  | route (ops : List Text)
  | routeoff (ops : List Text)
  | mark (ops : List Text)
  | unmark (ops : List Text)
  | flip (ops : List Text)
  | test (ops : List Text)
  | defaults (ops : List Text)
  | flashset (ops : List Text)
  | precedence (ops : List Text)
  | queue (ops : List Text)
  | hold (ops : List Text)
  | unhold (ops : List Text)
  | unholdall (ops : List Text)
  | repeatTakes (ops : List Text)
  | withdraw (ops : List Text)
  | clearunheld (ops : List Text)
  | clearstore (ops : List Text)
  | takewait (ops : List Text)
  | story (ops : List Text)
  | reportto (ops : List Text)
  | status (ops : List Text)
  | quiet (ops : List Text)
  | wake (ops : List Text)
  | full (ops : List Text)
  | reduced (ops : List Text)
  | restart (ops : List Text)
  | events (ops : List Text)
  | clearevent (ops : List Text)
  | mask (ops : List Text)
  | alerts (ops : List Text)
  | counts (ops : List Text)
  | clearcounts (ops : List Text)
  /-- EXECUTION_ENDS (R171): the last request line of the message has been executed. -/
  | executionEnds
  /-- WAIT_TIMER_EXPIRES (R74): the wait timer of take `take` of the story in `slot` expires. -/
  | waitTimerExpires (slot : SlotNo) (take : TakeNo)
  /-- SECOND_AGEING (R109): the second. -/
  | secondAgeing
  /-- MOTOR_START_TIMER_EXPIRES (R134). -/
  | motorStartTimerExpires (circuit : CircuitNo)
  /-- RUN_ON_TIMER_EXPIRES (R136). -/
  | runOnTimerExpires (circuit : CircuitNo)
  /-- CHARACTER_SENT (R137): the last code of the group being sent on `circuit` has been sent. -/
  | characterSent (circuit : CircuitNo)
  /-- MARK_TO_SPACE_TRANSITION (R6, R11). -/
  | markToSpaceTransition (line : LineNo)
  /-- SPACE_TO_MARK_TRANSITION (R9, R10, R11). -/
  | spaceToMarkTransition (line : LineNo)
  /-- FALSE_START (R6): the start sample finds the line marking. -/
  | falseStart (line : LineNo)
  deriving DecidableEq, Repr

end Sys2Proof
end

