-- ==== Sys2Proof/Decode.lean ====
section
/-!
DEFINITION. Decode.lean: commands read from the bits of spec/opcode_table.json. No row of the table gives bits: the part
takes characters, pins and timers, not encoded words. No word therefore spells a command.
-/
namespace Sys2Proof

/-- The command that a word spells by the table's bits: none, for any word. -/
def decodeTableWord (_nbits _w : Nat) : Option Instr := none

end Sys2Proof
end

