-- ==== Sys2Proof/Config.lean ====
section
/-!
DEFINITION. Config.lean: the sizes and limits that the manual fixes for the part. The manual leaves no value open that a
command reads, so there is no free value here; the order of events that come together is the order in which the outside
sends them (notes/assumptions/19.md).
-/
namespace Sys2Proof.Config

/-- Delivery records in the pool (R110). -/
def poolSize : Nat := 192

/-- Reports the report buffer holds (R172). -/
def reportBufferSize : Nat := 8

/-- House characters a report holds (R171). -/
def reportLimit : Nat := 1536

/-- Room kept in a reply for the omission line and the closing line (R171). -/
def replyReserve : Nat := 15

/-- Top of every 16-bit counter (spec/00_scope.md, "Counters"). -/
def counterTop : Nat := 65535

/-- Top of a kind's repeat count (R179). -/
def repeatTop : Nat := 255

/-- Top of a record's age (R109). -/
def ageTop : Nat := 4095

/-- Top of a take's substitute count (R60). -/
def subCountTop : Nat := 15

/-- Characters in a block (R59). -/
def blockSize : Nat := 64

/-- Characters a header may hold (R20). -/
def headerLimit : Nat := 64

/-- Characters kept of a slug (R22). -/
def slugLimit : Nat := 24

/-- Request lines a message may hold, and characters in one (R162). -/
def requestLineLimit : Nat := 16
def requestLength : Nat := 96

/-- Slots held at once (R83). -/
def heldLimit : Nat := 32

/-- Score from which a queued record goes before a report (R120). -/
def reportClaim : Nat := 200

/-- Records a QUEUE reply lists (R126). -/
def queueListing : Nat := 16

/-- Greatest number of character-sent events that fall due at once, for groups with no codes (R49), taken inside one
step. It is above what the pool and the report buffer can hold (notes/assumptions/3.md). -/
def atOnceLimit : Nat := 4194304

end Sys2Proof.Config
end

