-- ==== Sys2Proof/Machine/State.lean ====
section
/-!
DEFINITION. Machine/State.lean: everything the manual gives the 2416 to hold, as plain data, and its values right after
pin reset. Each structure cites the rule whose field table it follows. Timers hold the value they were loaded with while
they run and `none` while stopped; the moment of an expiry is a command (notes/assumptions/4.md).
-/
namespace Sys2Proof.Machine

open Sys2Proof

/-! ### Names shared by the blocks -/

/-- Level of a line input or circuit output: idle is marking (spec/00_scope.md, "Pins, supply and clock"). -/
inductive Pin where
  | marking | spacing
  deriving DecidableEq, Repr

/-- Data elements of a line or circuit code (R1, R128). -/
inductive Width where
  | five | seven
  deriving DecidableEq, Repr

/-- Stop elements: 1, 1.5 or 2 (R1, R128). -/
inductive Stop where
  | one | oneHalf | two
  deriving DecidableEq, Repr

/-- Kind of a code bank (R38). -/
inductive BankKind where
  | five | seven
  deriving DecidableEq, Repr

/-- Precedence classes, highest first (spec/00_scope.md, "Precedence classes"). -/
inductive Class where
  | flash | bulletin | urgent | routine | deferred
  deriving DecidableEq, Repr

/-- A rate of the rate set: its place in 50, 75, 100, 110, 150, 200, 300, 600 baud. -/
abbrev Rate := Fin 8

abbrev RateSet := BitSet 8

/-- The two letters of an agency. -/
structure Agency where
  first : Letter
  second : Letter
  deriving DecidableEq, Repr

/-- A story key: an agency code and a story number 0–9999. -/
structure Key where
  agency : Agency
  number : Fin 10000
  deriving DecidableEq, Repr

/-- The three letters of a category. -/
structure Category where
  first : Letter
  second : Letter
  third : Letter
  deriving DecidableEq, Repr

/-! ### Lines (R1, R6, R13, R17) -/

/-- The line descriptor (R1). `agency` is `none` for "**"; the silence limit is in units of 10 seconds. -/
structure LineDesc where
  rates : RateSet
  width : Width
  stop : Stop
  bank : BankNo
  agency : Option Agency
  clearance : Level
  silenceLimit : Nat
  deriving DecidableEq, Repr

/-- Reception states (spec/01_agency_lines.md, "Receiving a character"). -/
inductive RxState where
  | idle | start | data | stop | hold | brk
  deriving DecidableEq, Repr

/-- The line receiver. Both timers are loaded with one character time, counted in half elements (R3, R10, R11). -/
structure Receiver where
  state : RxState
  breakWatch : Option Nat
  markingInterval : Option Nat
  deriving DecidableEq, Repr

/-- The inbound shift state (R41). -/
inductive Shift where
  | letters | figures
  deriving DecidableEq, Repr

inductive FramerState where
  | hunt | header | copyBody | manageBody | discard | broken
  deriving DecidableEq, Repr

inductive MessageKind where
  | copy | management
  deriving DecidableEq, Repr

/-- The envelope framer (R17). `held` is the number of slashes held. -/
structure Framer where
  state : FramerState
  kind : MessageKind
  held : Fin 3
  lineStart : Bool
  header : Text
  takeRef : Option (SlotNo × TakeNo)
  deriving DecidableEq, Repr

/-- The six line counters (R13). -/
structure LineCounters where
  messagesTaken : Nat
  headerFaults : Nat
  framing : Nat
  duplicates : Nat
  refused : Nat
  stray : Nat
  deriving DecidableEq, Repr

/-- One agency line. `outOfService` is the mark of the table check (R192); `silence` is the silence timer in seconds. -/
structure Line where
  input : Pin
  desc : LineDesc
  outOfService : Bool
  receiver : Receiver
  shift : Shift
  silence : Option Nat
  framer : Framer
  counters : LineCounters
  deriving DecidableEq, Repr

/-! ### Code banks (R38) -/

/-- An inbound entry. -/
inductive InEntry where
  | char (h : House)
  | drop
  | shiftLetters
  | shiftFigures
  deriving DecidableEq, Repr

/-- The requirement of an outbound code; the codes of a SEVEN bank have none and are held as `any`. -/
inductive Requirement where
  | letters | figures | any
  deriving DecidableEq, Repr

structure OutCode where
  code : LineCode
  req : Requirement
  deriving DecidableEq, Repr

/-- A code bank. A FIVE bank uses the two halves, a SEVEN bank `inSeven`; the shift codes are a FIVE bank's. -/
structure Bank where
  kind : BankKind
  inLetters : Vector InEntry 32
  inFigures : Vector InEntry 32
  inSeven : Vector InEntry 128
  out : Vector (List OutCode) 128
  sub : Option OutCode
  lettersShift : Option LineCode
  figuresShift : Option LineCode
  loaded : Bool
  deriving DecidableEq, Repr

/-! ### The story store (R58–R61) -/

/-- One text of a take (R59): its blocks in order, the characters standing in them in order, 64 to a block, and the cut
flag. The length is the number of characters. -/
structure Version where
  blocks : List BlockNo
  text : Text
  cut : Bool
  deriving DecidableEq, Repr

inductive TakeState where
  | filling | cutFilling | waiting | released
  deriving DecidableEq, Repr

/-- A take record (R60). -/
structure Take where
  state : TakeState
  fillingLine : Option LineNo
  cls : Class
  current : Version
  replacement : Option (Version × Class)
  superseded : Option (Version × Nat)
  releasedFlag : Bool
  subCount : Nat
  late : Bool
  waitTimer : Option Nat
  deriving DecidableEq, Repr

inductive SlotState where
  | free | occupied
  deriving DecidableEq, Repr

/-- A slot of the store (R58). Position `b` of `blockMap` is `true` while block `b` is in use. -/
structure Slot where
  state : SlotState
  key : Option Key
  category : Option Category
  slug : Option Text
  held : Bool
  lastTake : Option TakeNo
  passed : TakeSet
  pendingCount : Nat
  takes : Vector (Option Take) 12
  blockMap : BitSet 64
  deriving DecidableEq, Repr

/-! ### The route table (R92, R93) -/

/-- A route entry. In a pattern `none` stands for "*", in the agency pattern for "**". -/
structure RouteEntry where
  inUse : Bool
  cat1 : Option Letter
  cat2 : Option Letter
  cat3 : Option Letter
  agency : Option Agency
  floor : Class
  circuits : CircuitSet
  stop : Bool
  editLevel : Level
  deriving DecidableEq, Repr

/-! ### Precedence and delivery records (R106, R111) -/

structure PrecRow where
  base : Nat
  climb : Nat
  deriving DecidableEq, Repr

inductive ReadVersion where
  | current | superseded
  deriving DecidableEq, Repr

/-- What a record names: slot, take and the version it reads; absent as a whole when the record is detached. -/
structure RecRef where
  slot : SlotNo
  take : TakeNo
  version : ReadVersion
  deriving DecidableEq, Repr

inductive RecKind where
  | new | rpt | sub | late
  deriving DecidableEq, Repr

/-- A delivery record that is not free (R111). Its circuit is the circuit whose queue, sender or chain holds it. `composed`
is the header line fixed when the record was started (R140), kept while the record is broken off before its header began. -/
structure Rec where
  ref : Option RecRef
  cls : Class
  kind : RecKind
  gap : List TakeNo
  age : Nat
  resume : Option Nat
  composed : Option Text
  deriving DecidableEq, Repr

/-! ### Circuits (R128, R132, R155) -/

/-- The circuit descriptor (R128). The motor start delay is in units of 100 ms, the run-on in seconds. -/
structure CircuitDesc where
  rates : RateSet
  width : Width
  stop : Stop
  bank : BankNo
  carriage : Nat
  motorDelay : Nat
  runOn : Nat
  bulletinBreak : Bool
  deriving DecidableEq, Repr

inductive SenderState where
  | stopped | starting | carrying | closing | pausing
  deriving DecidableEq, Repr

inductive Carried where
  | nothing
  | record (r : Rec)
  | report
  deriving DecidableEq, Repr

inductive Phase where
  | lead | gap | header | body | trailer | cut | report
  deriving DecidableEq, Repr

/-- A sender's shift belief (R47). -/
inductive Belief where
  | letters | figures | unknown
  deriving DecidableEq, Repr

/-- The line a sender is told to print for a cut (R63, R145). -/
inductive CutLine where
  | withdrawal | storeCut
  deriving DecidableEq, Repr

/-- The house character being sent, the phase it was taken from, and its code group as put on the circuit (R45–R49). -/
structure Sending where
  char : House
  phase : Phase
  codes : List LineCode
  deriving DecidableEq, Repr

/-- A circuit's sender (R132). `lead`, `gap`, `header` and `tail` hold what is still to be printed of the generated text
of those phases (`tail` for TRAILER and CUT); `reportPos` is the place reached in a report; `cutTold` is the cut the
sender has been told to make; `chain` has its top last. -/
structure Sender where
  state : SenderState
  motor : Bool
  carried : Carried
  phase : Phase
  breakPending : Bool
  bodyPos : Nat
  lineStart : Nat
  chain : List Rec
  column : Nat
  belief : Belief
  motorTimer : Option Nat
  runOnTimer : Option Nat
  completed : Nat
  missed : Nat
  breaksIn : Nat
  lead : Text
  gap : Text
  header : Text
  tail : Text
  reportPos : Nat
  cutTold : Option CutLine
  sending : Option Sending
  deriving DecidableEq, Repr

/-- One desk circuit; `queue` is its queue of records, head first (R112). -/
structure Circuit where
  desc : CircuitDesc
  outOfService : Bool
  queue : List Rec
  sender : Sender
  deriving DecidableEq, Repr

/-! ### The management unit (R158, R192) -/

inductive BufferState where
  | free | opened | collecting | executing
  deriving DecidableEq, Repr

/-- The reply under composition: its characters so far, and the reply lines left out (R170, R171). -/
structure Reply where
  text : Text
  omitted : Nat
  deriving DecidableEq, Repr

/-- The message and report state (R158). `restartDue` says that the message holds an accepted RESTART (R169). -/
structure Mgmt where
  buffer : BufferState
  holder : Option LineNo
  level : Option Level
  tag : Option Text
  lines : List Text
  collecting : Text
  tooLong : Bool
  effective : Option Level
  reply : Option Reply
  restartDue : Bool
  reports : List Text
  reportCircuit : CircuitNo
  deriving DecidableEq, Repr

inductive Service where
  | full | reduced
  deriving DecidableEq, Repr

inductive CheckFlag where
  | notRun | passed | failed
  deriving DecidableEq, Repr

/-- The mode state (R192); the out-of-service marks stand with their lines and circuits. -/
structure Mode where
  quiet : Bool
  service : Service
  windowFirst : CircuitNo
  windowLast : CircuitNo
  loadedFlag : CheckFlag
  consistentFlag : CheckFlag
  deriving DecidableEq, Repr

/-! ### The event latch (R179, R180) -/

/-- The twelve event kinds, in priority order. -/
inductive EventKind where
  | checkFailed | storeFull | poolEmpty | deliveryMissed | lineBreak | takeCut | headerFault | standingRefused
  | lineSilent | framing | reportDropped | takeGap
  deriving DecidableEq, Repr

/-- The detail of an occurrence (R180). -/
inductive Detail where
  | flags (loaded consistent : CheckFlag)
  | lineKey (l : LineNo) (k : Key)
  | circuit (c : CircuitNo)
  | circuitKey (c : CircuitNo) (k : Key)
  | line (l : LineNo)
  | keyTake (k : Key) (t : TakeNo)
  | none
  deriving DecidableEq, Repr

/-- A kind's entry (R179). -/
structure LatchEntry where
  latched : Bool
  detail : Option Detail
  count : Nat
  masked : Bool
  owed : Bool
  deriving DecidableEq, Repr

structure Latch where
  entries : Vector LatchEntry 12
  alertMode : Bool
  deriving DecidableEq, Repr

/-! ### The part -/

/-- The 2416. `resetLow` is the reset input held low (R195); `recency` is front first (R61); `takeWait` is the take wait
limit in seconds (R89); `freeCount` is the free count of the pool (R110); `pending` is the queue of commands. `meanwhile` is
the outside's second queue: the events that come in the middle of a step, one list for each place in which the manual lets
another event be taken there (R31, R117, R159), front first (notes/assumptions/19.md). -/
structure State where
  resetLow : Bool
  lines : Vector Line 24
  banks : Vector Bank 4
  slots : Vector Slot 40
  recency : List SlotNo
  takeWait : Nat
  routes : Vector RouteEntry 64
  defaultSet : CircuitSet
  flashSet : CircuitSet
  precedence : Vector PrecRow 5
  freeCount : Nat
  circuits : Vector Circuit 16
  mgmt : Mgmt
  mode : Mode
  latch : Latch
  pending : List Instr
  meanwhile : List (List Instr)
  deriving DecidableEq, Repr

/-- The manual names no condition in which the part stops: every command leaves a next state. The type has no value, so
no meaning can fault. -/
inductive Fault where
  deriving DecidableEq, Repr

/-- Reasons for which a command is refused. -/
inductive Refusal where
  /-- Raised by `exec` alone, for a command whose meaning is not written; no arm does so at present. Safe: the run stops
  where the hardware goes on. -/
  | notModelled (mnemonic : String)
  deriving DecidableEq, Repr

/-! ### Values after pin reset -/

/-- R15. -/
def Receiver.reset : Receiver := { state := .idle, breakWatch := none, markingInterval := none }

/-- R37. -/
def Framer.reset : Framer :=
  { state := .hunt, kind := .copy, held := 0, lineStart := false, header := [], takeRef := none }

/-- R13. -/
def LineCounters.zero : LineCounters :=
  { messagesTaken := 0, headerFaults := 0, framing := 0, duplicates := 0, refused := 0, stray := 0 }

/-- The rate set {300}. -/
def onlyRate300 : RateSet := setOf [6]

/-- R15: the bootstrap descriptor of L0, and the inhibited descriptor of L1–L23. -/
def LineDesc.reset (l : LineNo) : LineDesc :=
  { rates := if l = 0 then onlyRate300 else noneOf 8
    width := .seven
    stop := .one
    bank := 0
    agency := none
    clearance := if l = 0 then 3 else 0
    silenceLimit := 0 }

/-- R15. The level of the line input belongs to the outside; it idles marking (notes/assumptions/6.md). -/
def Line.reset (l : LineNo) : Line :=
  { input := .marking
    desc := LineDesc.reset l
    outOfService := false
    receiver := Receiver.reset
    shift := .letters
    silence := none
    framer := Framer.reset
    counters := LineCounters.zero }

/-- The values that BANKKIND leaves (R51). -/
def Bank.emptied (k : BankKind) : Bank :=
  { kind := k
    inLetters := Vector.replicate 32 .drop
    inFigures := Vector.replicate 32 .drop
    inSeven := Vector.replicate 128 .drop
    out := Vector.replicate 128 []
    sub := none
    lettersShift := none
    figuresShift := none
    loaded := false }

/-- R57: bank B0 as it comes up, the identity with substitute 63. -/
def Bank.identity : Bank :=
  { Bank.emptied .seven with
    inSeven := tabulate 128 fun n => .char n
    out := tabulate 128 fun n => [{ code := n, req := .any }]
    sub := some { code := 63, req := .any }
    loaded := true }

/-- R57. -/
def Bank.reset (b : BankNo) : Bank := if b = 0 then Bank.identity else Bank.emptied .five

/-- The values of a FREE slot (R64, R91). -/
def Slot.freed : Slot :=
  { state := .free
    key := none
    category := none
    slug := none
    held := false
    lastTake := none
    passed := noneOf 12
    pendingCount := 0
    takes := Vector.replicate 12 none
    blockMap := noneOf 64 }

/-- R61: S0 at the front, S39 at the tail. -/
def recencyReset : List SlotNo := List.finRange 40

/-- R92: an entry not in use. -/
def RouteEntry.unused : RouteEntry :=
  { inUse := false
    cat1 := none
    cat2 := none
    cat3 := none
    agency := none
    floor := .deferred
    circuits := noneOf 16
    stop := false
    editLevel := 0 }

/-- R106: the default precedence table, FLASH to DEFERRED. -/
def precedenceReset : Vector PrecRow 5 := #v[⟨240, 0⟩, ⟨176, 1⟩, ⟨112, 2⟩, ⟨48, 4⟩, ⟨0, 2⟩]

/-- R156: the bootstrap descriptor of C0, and the inhibited descriptor of C1–C15. -/
def CircuitDesc.reset (c : CircuitNo) : CircuitDesc :=
  { rates := if c = 0 then onlyRate300 else noneOf 8
    width := .seven
    stop := .one
    bank := 0
    carriage := if c = 0 then 72 else 69
    motorDelay := if c = 0 then 0 else 15
    runOn := if c = 0 then 10 else 30
    bulletinBreak := false }

/-- R156. The fields the manual gives no value for while nothing is carried stand at empty (notes/assumptions/7.md). -/
def Sender.reset : Sender :=
  { state := .stopped
    motor := false
    carried := .nothing
    phase := .lead
    breakPending := false
    bodyPos := 0
    lineStart := 0
    chain := []
    column := 0
    belief := .unknown
    motorTimer := none
    runOnTimer := none
    completed := 0
    missed := 0
    breaksIn := 0
    lead := []
    gap := []
    header := []
    tail := []
    reportPos := 0
    cutTold := none
    sending := none }

/-- R127, R156. -/
def Circuit.reset (c : CircuitNo) : Circuit :=
  { desc := CircuitDesc.reset c, outOfService := false, queue := [], sender := Sender.reset }

/-- R177. -/
def Mgmt.reset : Mgmt :=
  { buffer := .free
    holder := none
    level := none
    tag := none
    lines := []
    collecting := []
    tooLong := false
    effective := none
    reply := none
    restartDue := false
    reports := []
    reportCircuit := 0 }

/-- R192. -/
def Mode.reset : Mode :=
  { quiet := true
    service := .full
    windowFirst := 0
    windowLast := 15
    loadedFlag := .notRun
    consistentFlag := .notRun }

/-- A clear, unmasked kind (R191). -/
def LatchEntry.clear : LatchEntry := { latched := false, detail := none, count := 0, masked := false, owed := false }

/-- R191. -/
def Latch.reset : Latch := { entries := Vector.replicate 12 LatchEntry.clear, alertMode := false }

/-- The part right after release of the reset input (R196), every line input marking and no command waiting. -/
def State.reset : State :=
  { resetLow := false
    lines := tabulate 24 Line.reset
    banks := tabulate 4 Bank.reset
    slots := Vector.replicate 40 Slot.freed
    recency := recencyReset
    takeWait := 120
    routes := Vector.replicate 64 RouteEntry.unused
    defaultSet := setOf [0]
    flashSet := noneOf 16
    precedence := precedenceReset
    freeCount := Config.poolSize
    circuits := tabulate 16 Circuit.reset
    mgmt := Mgmt.reset
    mode := Mode.reset
    latch := Latch.reset
    pending := []
    meanwhile := [] }

end Sys2Proof.Machine
end

