-- ==== Sys2Proof/Machine/Operands.lean ====
section
/-!
DEFINITION. Machine/Operands.lean: the written forms of spec/11_message_layouts.md (R204). First the house characters and
numbers, then every operand form the management unit reads, then every result form it writes. A reader answers `none` for
a token not in its form; a number is read as its value, whatever its range, and the owning rule judges the range.
-/
namespace Sys2Proof.Machine

open Sys2Proof

/-! ### House characters (spec/00_scope.md, "House code") -/

/-- The house character of an ASCII character. -/
def ch (c : Char) : House := Fin.ofNat 128 c.toNat

/-- A string as house text. -/
def txt (s : String) : Text := s.toList.map ch

def houseNL : House := 10
def houseSUB : House := 26
def houseSpace : House := 32
def houseSlash : House := 47

/-- House 26 and houses 32–126 advance the column. -/
def isAdvancing (h : House) : Bool := h = houseSUB || (32 ≤ h.val && h.val ≤ 126)

/-- A function in the sense of R20 and R26: houses 0–31 other than NL and SUB, and house 127. -/
def isFunction (h : House) : Bool := (h.val < 32 && h ≠ houseNL && h ≠ houseSUB) || h.val = 127

def isDigit (h : House) : Bool := 48 ≤ h.val && h.val ≤ 57

def isCapital (h : House) : Bool := 65 ≤ h.val && h.val ≤ 90

/-- The text as one line, ended by NL. -/
def lineOf (t : Text) : Text := t ++ [houseNL]

/-! ### Numbers -/

def digitOf (n : Nat) : House := Fin.ofNat 128 (48 + n % 10)

/-- Decimal digits of `n` before `acc`; `fuel` bounds their number. -/
def decimalOnto : Nat → Nat → Text → Text
  | 0, _, acc => acc
  | fuel + 1, n, acc => if n < 10 then digitOf n :: acc else decimalOnto fuel (n / 10) (digitOf n :: acc)

/-- A number in decimal without leading zeros (R204). -/
def decimal (n : Nat) : Text := decimalOnto (n + 1) n []

/-- The value of a run of digits, leading zeros allowed. -/
def digitsValue (t : Text) : Nat := t.foldl (fun a d => 10 * a + (d.val - 48)) 0

/-- A token of one or more digits. -/
def number? (t : Text) : Option Nat := if t ≠ [] ∧ t.all isDigit then some (digitsValue t) else none

/-- The number below `n` with value `k`, if `k` is in range. -/
def below? (n k : Nat) : Option (Fin n) := if h : k < n then some ⟨k, h⟩ else none

/-! ### Tokens (R167) and lists (R204) -/

/-- The text split at every `sep`: always one piece more than there are separators. -/
def splitAtSep (sep : House) : Text → List Text
  | [] => [[]]
  | c :: t =>
    if c = sep then [] :: splitAtSep sep t
    else match splitAtSep sep t with
      | [] => [[c]]
      | p :: ps => (c :: p) :: ps

/-- R167: the tokens of a line, separated by runs of spaces. -/
def tokens (t : Text) : List Text := (splitAtSep houseSpace t).filter (fun p => p ≠ [])

/-- Every member read by `f`, or `none` if one is not in its form. -/
def forms {α β : Type} (f : α → Option β) : List α → Option (List β)
  | [] => some []
  | x :: xs =>
    match f x, forms f xs with
    | some y, some ys => some (y :: ys)
    | _, _ => none

/-- A list operand: members joined by ",", or "-" for none. -/
def listForm {β : Type} (f : Text → Option β) (t : Text) : Option (List β) :=
  if t = txt "-" then some [] else forms f (splitAtSep (ch ',') t)

/-! ### Operand forms -/

/-- A letter and one or two digits. -/
def lettered2 (c : Char) : Text → Option Nat
  | h :: ds => if h = ch c ∧ ds.length ≤ 2 then number? ds else none
  | [] => none

def lineForm : Text → Option Nat := lettered2 'L'
def circuitForm : Text → Option Nat := lettered2 'C'
def entryForm : Text → Option Nat := lettered2 'E'
def takeForm : Text → Option Nat := lettered2 'T'

/-- "B" and one or more digits. -/
def bankForm : Text → Option Nat
  | h :: ds => if h = ch 'B' then number? ds else none
  | [] => none

/-- A bank written as B0–B3, as LINE and CIRCUIT require it (R4, R130). -/
def bankInRange (t : Text) : Option BankNo := (bankForm t).bind (below? 4)

def letterOf (h : House) : Letter := Fin.ofNat 26 (h.val - 65)

/-- Two capital letters. -/
def agencyCode : Text → Option Agency
  | [a, b] => if isCapital a ∧ isCapital b then some ⟨letterOf a, letterOf b⟩ else none
  | _ => none

/-- Two capital letters or "**" (the outer `Option` is the form, the inner one "**"). -/
def agencyForm (t : Text) : Option (Option Agency) :=
  if t = txt "**" then some none else (agencyCode t).map some

/-- Three capital letters. -/
def categoryForm : Text → Option Category
  | [a, b, c] =>
    if isCapital a ∧ isCapital b ∧ isCapital c then some ⟨letterOf a, letterOf b, letterOf c⟩ else none
  | _ => none

/-- One position of a category pattern: a capital letter or "*". -/
def patternLetter (h : House) : Option (Option Letter) :=
  if h = ch '*' then some none else if isCapital h then some (some (letterOf h)) else none

/-- Three characters, each a capital letter or "*". -/
def patternForm : Text → Option (Option Letter × Option Letter × Option Letter)
  | [a, b, c] =>
    match patternLetter a, patternLetter b, patternLetter c with
    | some x, some y, some z => some (x, y, z)
    | _, _, _ => none
  | _ => none

/-- One to four digits, as a story number. -/
def storyNumber (t : Text) : Option (Fin 10000) :=
  if t.length ≤ 4 then (number? t).bind (below? 10000) else none

/-- Two capital letters and one to four digits. -/
def keyForm : Text → Option Key
  | a :: b :: ds =>
    match agencyCode [a, b], storyNumber ds with
    | some ag, some n => some ⟨ag, n⟩
    | _, _ => none
  | _ => none

/-- A class as one of its letters. -/
def classForm (t : Text) : Option Class :=
  if t = txt "F" then some .flash else if t = txt "B" then some .bulletin else if t = txt "U" then some .urgent
  else if t = txt "R" then some .routine else if t = txt "D" then some .deferred else none

/-- Two takes joined by "-". -/
def rangeForm (t : Text) : Option (Nat × Nat) :=
  match splitAtSep (ch '-') t with
  | [a, b] => match takeForm a, takeForm b with
    | some m, some n => some (m, n)
    | _, _ => none
  | _ => none

def baud (r : Rate) : Nat := #v[50, 75, 100, 110, 150, 200, 300, 600][r]

/-- One of the eight rates, by value. -/
def rateForm (t : Text) : Option Rate :=
  (number? t).bind fun n => (List.finRange 8).find? fun r => baud r = n

/-- Rates joined by ",", or "-" for the empty set. -/
def rateSetForm (t : Text) : Option RateSet := (listForm rateForm t).map setOf

def widthForm (t : Text) : Option Width :=
  match number? t with
  | some 5 => some .five
  | some 7 => some .seven
  | _ => none

/-- 1, 1.5 or 2, exactly as written. -/
def stopForm (t : Text) : Option Stop :=
  if t = txt "1" then some .one else if t = txt "1.5" then some .oneHalf else if t = txt "2" then some .two else none

def onOffForm (t : Text) : Option Bool :=
  if t = txt "ON" then some true else if t = txt "OFF" then some false else none

def stopFlagForm (t : Text) : Option Bool :=
  if t = txt "STOP" then some true else if t = txt "PASS" then some false else none

def kindForm (t : Text) : Option BankKind :=
  if t = txt "FIVE" then some .five else if t = txt "SEVEN" then some .seven else none

def halfForm (t : Text) : Option Shift :=
  if t = txt "LETTERS" then some .letters else if t = txt "FIGURES" then some .figures else none

/-- One digit. -/
def oneDigit : Text → Option Nat
  | [d] => number? [d]
  | _ => none

/-- An inbound entry as typed for a bank of kind `k`; a house value is kept as its number until its range is judged. -/
inductive TypedEntry where
  | value (n : Nat)
  | entry (e : InEntry)
  deriving DecidableEq, Repr

def inEntryForm (k : BankKind) (t : Text) : Option TypedEntry :=
  if t = txt "DROP" then some (.entry .drop)
  else if t = txt "SHIFT-LETTERS" then (if k = .five then some (.entry .shiftLetters) else none)
  else if t = txt "SHIFT-FIGURES" then (if k = .five then some (.entry .shiftFigures) else none)
  else (number? t).map .value

/-- A line code followed by L, F or A on a FIVE bank, a bare line code on a SEVEN bank; the code's range is not judged. -/
def outCodeForm (k : BankKind) (t : Text) : Option (Nat × Requirement) :=
  match k with
  | .seven => (number? t).map fun n => (n, .any)
  | .five =>
    match t.getLast?, number? t.dropLast with
    | some q, some n =>
      if q = ch 'L' then some (n, .letters) else if q = ch 'F' then some (n, .figures)
      else if q = ch 'A' then some (n, .any) else none
    | _, _ => none

/-- One to three codes joined by "+", or "-" for empty. -/
def outEntryForm (k : BankKind) (t : Text) : Option (List (Nat × Requirement)) :=
  if t = txt "-" then some []
  else
    let parts := splitAtSep (ch '+') t
    if parts.length ≤ 3 then forms (outCodeForm k) parts else none

/-! ### Result forms -/

def lineTok (l : LineNo) : Text := ch 'L' :: decimal l
def circuitTok (c : CircuitNo) : Text := ch 'C' :: decimal c
def bankTok (b : BankNo) : Text := ch 'B' :: decimal b
def slotTok (s : SlotNo) : Text := ch 'S' :: decimal s
def takeTok (t : TakeNo) : Text := ch 'T' :: decimal t

def letterTok (l : Letter) : House := Fin.ofNat 128 (65 + l.val)

def agencyTok (a : Agency) : Text := [letterTok a.first, letterTok a.second]

/-- A story key: its letters and its number, with no leading zeros. -/
def keyTok (k : Key) : Text := agencyTok k.agency ++ decimal k.number

def categoryTok (c : Category) : Text := [letterTok c.first, letterTok c.second, letterTok c.third]

def anyAgencyTok : Option Agency → Text
  | none => txt "**"
  | some a => agencyTok a

def patternTok (p : Option Letter) : House :=
  match p with
  | none => ch '*'
  | some l => letterTok l

def classLetter : Class → House
  | .flash => ch 'F'
  | .bulletin => ch 'B'
  | .urgent => ch 'U'
  | .routine => ch 'R'
  | .deferred => ch 'D'

/-- Members joined by `sep`. -/
def joined (sep : House) : List Text → Text
  | [] => []
  | [t] => t
  | t :: ts => t ++ sep :: joined sep ts

/-- Members joined by ",", or "-" where there are none. -/
def listTok (l : List Text) : Text := if l.isEmpty then txt "-" else joined (ch ',') l

def circuitSetTok (s : CircuitSet) : Text := listTok ((members s).map circuitTok)

def takeSetTok (s : TakeSet) : Text := listTok ((members s).map takeTok)

def rateSetTok (s : RateSet) : Text := listTok ((members s).map fun r => decimal (baud r))

def widthTok : Width → Text
  | .five => txt "5"
  | .seven => txt "7"

def stopTok : Stop → Text
  | .one => txt "1"
  | .oneHalf => txt "1.5"
  | .two => txt "2"

def onOffTok (b : Bool) : Text := if b then txt "ON" else txt "OFF"

def kindTok : BankKind → Text
  | .five => txt "FIVE"
  | .seven => txt "SEVEN"

def halfTok : Shift → Text
  | .letters => txt "LETTERS"
  | .figures => txt "FIGURES"

def inOutTok (b : Bool) : Text := if b then txt "IN" else txt "OUT"

/-- An outbound code of a bank of kind `k`. -/
def outCodeTok (k : BankKind) (c : OutCode) : Text :=
  decimal c.code ++
    match k, c.req with
    | .seven, _ => []
    | .five, .letters => txt "L"
    | .five, .figures => txt "F"
    | .five, .any => txt "A"

def serviceTok : Service → Text
  | .full => txt "FULL"
  | .reduced => txt "REDUCED"

def windowTok (first last : CircuitNo) : Text := circuitTok first ++ ch '-' :: circuitTok last

def checkTok : CheckFlag → Text
  | .notRun => txt "NOT-RUN"
  | .passed => txt "PASSED"
  | .failed => txt "FAILED"

def recKindTok : RecKind → Text
  | .new => txt "NEW"
  | .rpt => txt "RPT"
  | .sub => txt "SUB"
  | .late => txt "LATE"

def takeStateTok : TakeState → Text
  | .filling => txt "FILLING"
  | .cutFilling => txt "CUT-FILLING"
  | .waiting => txt "WAITING"
  | .released => txt "RELEASED"

/-- The name of an event kind (R180). -/
def eventTok : EventKind → Text
  | .checkFailed => txt "CHECK_FAILED"
  | .storeFull => txt "STORE_FULL"
  | .poolEmpty => txt "POOL_EMPTY"
  | .deliveryMissed => txt "DELIVERY_MISSED"
  | .lineBreak => txt "LINE_BREAK"
  | .takeCut => txt "TAKE_CUT"
  | .headerFault => txt "HEADER_FAULT"
  | .standingRefused => txt "STANDING_REFUSED"
  | .lineSilent => txt "LINE_SILENT"
  | .framing => txt "FRAMING"
  | .reportDropped => txt "REPORT_DROPPED"
  | .takeGap => txt "TAKE_GAP"

/-- The tokens of an event detail, in the order of R180's table. -/
def detailToks : Detail → List Text
  | .flags a b => [checkTok a, checkTok b]
  | .lineKey l k => [lineTok l, keyTok k]
  | .circuit c => [circuitTok c]
  | .circuitKey c k => [circuitTok c, keyTok k]
  | .line l => [lineTok l]
  | .keyTake k t => [keyTok k, takeTok t]
  | .none => []

/-! ### Statuses of a reply line (R168, R170) -/

inductive Reason where
  | form | range | absent | full | mode | standing
  deriving DecidableEq, Repr

inductive Status where
  | done
  | kept
  | refused (r : Reason)
  deriving DecidableEq, Repr

def reasonTok : Reason → Text
  | .form => txt "FORM"
  | .range => txt "RANGE"
  | .absent => txt "ABSENT"
  | .full => txt "FULL"
  | .mode => txt "MODE"
  | .standing => txt "STANDING"

def statusTok : Status → Text
  | .done => txt "DONE"
  | .kept => txt "KEPT"
  | .refused r => txt "REFUSED " ++ reasonTok r

/-- A request's answer: its status and the tokens of its results. -/
structure Answer where
  status : Status
  results : List Text
  deriving DecidableEq, Repr

/-- R170: the verb as typed, at most 12 characters of it, the status, and the results, each after a space. -/
def replyLine (verb : Text) (a : Answer) : Text :=
  lineOf (verb.take 12 ++ houseSpace :: statusTok a.status ++ (a.results.map (houseSpace :: ·)).flatten)

/-- The verbs of the request catalogue (spec/08_management_envelopes.md). -/
def catalogue : List Text :=
  ["LINE", "LINEBANK", "CIRCUIT", "BANKKIND", "BANKIN", "BANKOUT", "BANKSUB", "BANKSHIFT", "ROUTE", "ROUTEOFF",
    "MARK", "UNMARK", "FLIP", "TEST", "DEFAULTS", "FLASHSET", "PRECEDENCE", "QUEUE", "HOLD", "UNHOLD", "UNHOLDALL",
    "REPEAT", "WITHDRAW", "CLEARUNHELD", "CLEARSTORE", "TAKEWAIT", "STORY", "REPORTTO", "STATUS", "QUIET", "WAKE",
    "FULL", "REDUCED", "RESTART", "EVENTS", "CLEAREVENT", "MASK", "ALERTS", "COUNTS", "CLEARCOUNTS"].map txt

end Sys2Proof.Machine
end

