-- ==== Sys2Proof/Machine/Ops.lean ====
section
/-!
DEFINITION. Machine/Ops.lean: the named updates of each piece of state, and the small shared readings of it: service,
timing, the recency list, class order, withholding, scores, versions and blocks, and a record's return to the pool.
-/
namespace Sys2Proof.Machine

open Sys2Proof

/-! ### Named updates -/

def modLine (s : State) (l : LineNo) (f : Line → Line) : State := { s with lines := modAt s.lines l f }

def modCircuit (s : State) (c : CircuitNo) (f : Circuit → Circuit) : State :=
  { s with circuits := modAt s.circuits c f }

def modSlot (s : State) (n : SlotNo) (f : Slot → Slot) : State := { s with slots := modAt s.slots n f }

def modBank (s : State) (b : BankNo) (f : Bank → Bank) : State := { s with banks := modAt s.banks b f }

def modMgmt (s : State) (f : Mgmt → Mgmt) : State := { s with mgmt := f s.mgmt }

def modReceiver (s : State) (l : LineNo) (f : Receiver → Receiver) : State :=
  modLine s l fun x => { x with receiver := f x.receiver }

def modFramer (s : State) (l : LineNo) (f : Framer → Framer) : State :=
  modLine s l fun x => { x with framer := f x.framer }

def modLineCounters (s : State) (l : LineNo) (f : LineCounters → LineCounters) : State :=
  modLine s l fun x => { x with counters := f x.counters }

def modSender (s : State) (c : CircuitNo) (f : Sender → Sender) : State :=
  modCircuit s c fun x => { x with sender := f x.sender }

def modQueue (s : State) (c : CircuitNo) (f : List Rec → List Rec) : State :=
  modCircuit s c fun x => { x with queue := f x.queue }

/-- A change to a take record of a slot; a slot without that take is left as it is. -/
def modTake (s : State) (n : SlotNo) (t : TakeNo) (f : Take → Take) : State :=
  modSlot s n fun x => { x with takes := modAt x.takes t (Option.map f) }

/-- One more on a 16-bit counter (R13, R155). -/
def count (n : Nat) : Nat := satInc Config.counterTop n

/-! ### Service and timing (R2, R3, R129) -/

/-- A line is in service when its rate set is not empty and the table check has not put it out of service (R2). -/
def lineInService (x : Line) : Bool := x.desc.rates ≠ noneOf 8 && !x.outOfService

/-- A circuit is in service on the same terms (R129). -/
def circuitInService (x : Circuit) : Bool := x.desc.rates ≠ noneOf 8 && !x.outOfService

/-- The highest member of a rate set, in baud; `none` for the empty set (R2). -/
def effectiveRate (r : RateSet) : Option Nat := ((members r).getLast?).map baud

def widthElements : Width → Nat
  | .five => 5
  | .seven => 7

def stopHalves : Stop → Nat
  | .one => 2
  | .oneHalf => 3
  | .two => 4

/-- A character time in half elements: 1 start element, the data elements and the stop elements (R3). -/
def charTimeHalves (w : Width) (p : Stop) : Nat := 2 * (1 + widthElements w) + stopHalves p

/-- What a code puts on the circuit output, element by element, without its stop elements: the start element spacing,
then the data elements, lowest-order unit first, a 1 marking (R129). -/
def codeElements (w : Width) (c : LineCode) : List Pin :=
  .spacing :: (List.range (widthElements w)).map fun i => if c.val.testBit i then .marking else .spacing

/-- The value the silence timer is loaded with: the silence limit times 10, in seconds, while the line is in service with
a limit above 0; otherwise the timer is stopped (R12). -/
def silenceLoad (x : Line) : Option Nat :=
  if lineInService x && x.desc.silenceLimit > 0 then some (x.desc.silenceLimit * 10) else none

/-- Width 5 matches FIVE and width 7 matches SEVEN (R38). -/
def kindMatches (w : Width) (k : BankKind) : Bool :=
  match w, k with
  | .five, .five => true
  | .seven, .seven => true
  | _, _ => false

/-! ### The recency list (R61) -/

def toFront (n : SlotNo) (l : List SlotNo) : List SlotNo := n :: l.filter (fun m => m ≠ n)

def toTail (n : SlotNo) (l : List SlotNo) : List SlotNo := l.filter (fun m => m ≠ n) ++ [n]

def slotToFront (s : State) (n : SlotNo) : State := { s with recency := toFront n s.recency }

def slotToTail (s : State) (n : SlotNo) : State := { s with recency := toTail n s.recency }

/-! ### Classes -/

/-- Place of a class in the order, FLASH 0 to DEFERRED 4 (R106). -/
def classIdx : Class → Fin 5
  | .flash => 0
  | .bulletin => 1
  | .urgent => 2
  | .routine => 3
  | .deferred => 4

/-- `a` is at or above `b` (spec/00_scope.md, "Precedence classes"). -/
def atOrAbove (a b : Class) : Bool := classIdx a ≤ classIdx b

/-- R118: class `x` breaks into class `y` on a circuit whose bulletin break option is `opt`. -/
def breaksInto (opt : Bool) (x y : Class) : Bool :=
  match x, y with
  | .flash, .flash => false
  | .flash, _ => true
  | .bulletin, .flash => false
  | .bulletin, .bulletin => false
  | .bulletin, _ => opt
  | _, _ => false

/-! ### Withholding (R193) -/

/-- The degrees of withholding, from most allowed to least. -/
inductive Degree where
  | notWithheld | exceptFlash | wholly
  deriving DecidableEq, Repr

def degreeRank : Degree → Nat
  | .notWithheld => 0
  | .exceptFlash => 1
  | .wholly => 2

def inWindow (m : Mode) (c : CircuitNo) : Bool := m.windowFirst ≤ c && c ≤ m.windowLast

/-- R193. -/
def degree (m : Mode) (c : CircuitNo) : Degree :=
  if m.quiet then .wholly
  else match m.service with
    | .full => .notWithheld
    | .reduced => if inWindow m c then .notWithheld else .exceptFlash

/-- R119: a queued record of class `x` is eligible at a degree of withholding. -/
def eligible (d : Degree) (x : Class) : Bool :=
  match d with
  | .notWithheld => true
  | .exceptFlash => x = .flash
  | .wholly => false

/-! ### The score (R108) -/

/-- The smaller of the rise and the cap. -/
def score (p : Vector PrecRow 5) (c : Class) (age : Nat) : Nat :=
  let row := p[classIdx c]
  let rise := row.base + age * row.climb / 16
  let cap := if c = .flash then 255 else p[classIdx .flash].base - 1
  min rise cap

def scoreOf (s : State) (r : Rec) : Nat := score s.precedence r.cls r.age

/-! ### Versions and blocks (R59, R76) -/

def Version.empty : Version := { blocks := [], text := [], cut := false }

/-- A version's length (R59). -/
def Version.length (v : Version) : Nat := v.text.length

/-- The lowest-numbered free block of a slot (R59). -/
def lowestFree (m : BitSet 64) : Option BlockNo := (List.finRange 64).find? fun b => !m[b]

/-- The map with the blocks of a list marked free. -/
def freeBlocks (m : BitSet 64) (bs : List BlockNo) : BitSet 64 := tabulate 64 fun b => m[b] && !decide (b ∈ bs)

def takeAt (s : State) (n : SlotNo) (t : TakeNo) : Option Take := s.slots[n].takes[t]

/-- The version a take gives to a reader of `v`. -/
def versionOf (k : Take) : ReadVersion → Version
  | .current => k.current
  | .superseded => match k.superseded with
    | some (v, _) => v
    | none => k.current

/-- The version a record reads; a detached record reads nothing (R63). -/
def readVersion (s : State) (r : Rec) : Version :=
  match r.ref with
  | none => Version.empty
  | some f => match takeAt s f.slot f.take with
    | some k => versionOf k f.version
    | none => Version.empty

/-- R76: the reader count of a take's superseded version falls by one, and at 0 the version is freed. -/
def dropReader (x : Slot) (t : TakeNo) : Slot :=
  match x.takes[t] with
  | none => x
  | some k => match k.superseded with
    | none => x
    | some (v, n) =>
      if n ≤ 1 then
        { x with
          takes := put x.takes t (some { k with superseded := none })
          blockMap := freeBlocks x.blockMap v.blocks }
      else { x with takes := put x.takes t (some { k with superseded := some (v, n - 1) }) }

/-- What a record's leaving does to the slot it names: the pending count falls by one, and a superseded version it read
has one reader less (R62, R63, R124). -/
def unname (x : Slot) (f : RecRef) : Slot :=
  let y := { x with pendingCount := x.pendingCount - 1 }
  match f.version with
  | .current => y
  | .superseded => dropReader y f.take

def unnameIn (s : State) (ref : Option RecRef) : State :=
  match ref with
  | none => s
  | some f => modSlot s f.slot fun x => unname x f

/-- R124: the record becomes free. A detached record lowers no count. -/
def returnRecord (s : State) (r : Rec) : State :=
  unnameIn { s with freeCount := s.freeCount + 1 } r.ref

/-- The records of a list returned to the pool, in order. -/
def returnRecords (s : State) (rs : List Rec) : State := rs.foldl returnRecord s

/-- The record names take `t` of slot `n`. -/
def ofTake (n : SlotNo) (t : TakeNo) (r : Rec) : Bool :=
  match r.ref with
  | some f => f.slot = n && f.take = t
  | none => false

/-- The story key of the slot a record names. -/
def keyOfRecord (s : State) (r : Rec) : Option Key :=
  r.ref.bind fun f => s.slots[f.slot].key

/-- A list without its member at `i`. -/
def withoutAt {α : Type} (l : List α) (i : Nat) : List α := l.eraseIdx i

/-! ### Events in the middle of a step -/

/-- A place in a step in which the manual lets another event be taken: the events that come there are offered to `f`, in
order. -/
def inGap (f : State → Instr → State) (s : State) : State :=
  (s.meanwhile.headD []).foldl f { s with meanwhile := s.meanwhile.tail }

end Sys2Proof.Machine
end

