-- ==== Sys2Proof/Machine/Banks.lean ====
section
/-!
DEFINITION. Machine/Banks.lean: conversion through the code banks (spec/03_code_banks.md): line code to house code on a
line (R39–R43), house code to a code group on a circuit with shift insertion (R45–R48).
-/
namespace Sys2Proof.Machine

open Sys2Proof

/-! ### Inbound -/

/-- What an inbound entry hands on, and the shift state after it (R39). -/
def entryOutcome (e : InEntry) (sh : Shift) : Option House × Shift :=
  match e with
  | .char h => (some h, sh)
  | .drop => (none, sh)
  | .shiftLetters => (none, .letters)
  | .shiftFigures => (none, .figures)

/-- R39, R40, R43: the house character a line code gives, if any, and the shift state after it. -/
def convertIn (b : Bank) (w : Width) (sh : Shift) (code : LineCode) : Option House × Shift :=
  match w, b.kind with
  | .five, .five =>
    let i : Fin 32 := Fin.ofNat 32 code.val
    match sh with
    | .letters => entryOutcome b.inLetters[i] sh
    | .figures => entryOutcome b.inFigures[i] sh
  | .seven, .seven => ((entryOutcome b.inSeven[code] sh).1, sh)
  | _, _ => (some houseSUB, sh)

/-! ### Outbound -/

/-- R45: the codes taken for a house character. -/
def codesTaken (b : Bank) (h : House) : List OutCode :=
  let entry := b.out[h]
  if entry = [] then b.sub.toList else entry

/-- R46: one code with the shift code it needs, and the belief after it. -/
def shiftInsert (b : Bank) (blf : Belief) (c : OutCode) : List LineCode × Belief :=
  match c.req with
  | .any => ([c.code], blf)
  | .letters =>
    if blf = .letters then ([c.code], blf)
    else match b.lettersShift with
      | some k => ([k, c.code], .letters)
      | none => ([c.code], blf)
  | .figures =>
    if blf = .figures then ([c.code], blf)
    else match b.figuresShift with
      | some k => ([k, c.code], .figures)
      | none => ([c.code], blf)

/-- R46: shift insertion over a group's codes, each tested against the belief the codes before it left. -/
def insertShifts (b : Bank) : Belief → List OutCode → List LineCode × Belief
  | blf, [] => ([], blf)
  | blf, c :: cs =>
    let first := shiftInsert b blf c
    let rest := insertShifts b first.2 cs
    (first.1 ++ rest.1, rest.2)

/-- R48: a code put on the circuit at the circuit's own width. -/
def atWidth (w : Width) (c : LineCode) : LineCode :=
  match w with
  | .five => Fin.ofNat 128 (c.val % 32)
  | .seven => c

/-- R45–R48: the code group of a house character, and the sender's belief after it. -/
def convertOut (b : Bank) (w : Width) (blf : Belief) (h : House) : List LineCode × Belief :=
  match b.kind with
  | .five =>
    let g := insertShifts b blf (codesTaken b h)
    (g.1.map (atWidth w), g.2)
  | .seven => ((codesTaken b h).map fun c => atWidth w c.code, blf)

end Sys2Proof.Machine
end

