-- ==== Sys2Proof/Machine/Sender.lean ====
section
/-!
DEFINITION. Machine/Sender.lean: selection (R119–R122) and the circuit sender (spec/07_desk_circuits.md): what it prints,
how it takes the next character, and how it starts, selects, pauses and stops. Nothing here raises an event.
-/
namespace Sys2Proof.Machine

open Sys2Proof

/-! ### Choosing a record (R119–R121) -/

/-- Place and value of the member that satisfies `p` with the highest `f`; ties go to the member nearer the head. -/
def highest {α : Type} (p : α → Bool) (f : α → Nat) : List α → Option (Nat × Nat)
  | [] => none
  | x :: xs =>
    match highest p f xs with
    | none => if p x then some (0, f x) else none
    | some (j, v) => if p x && v ≤ f x then some (0, f x) else some (j + 1, v)

/-- Place and value of the member that satisfies `p` with the lowest `f`; ties go to the member nearer the tail. -/
def lowest {α : Type} (p : α → Bool) (f : α → Nat) : List α → Option (Nat × Nat)
  | [] => none
  | x :: xs =>
    match lowest p f xs with
    | none => if p x then some (0, f x) else none
    | some (j, v) => if p x && f x < v then some (0, f x) else some (j + 1, v)

/-- The degree of withholding of a circuit as the mode state stands. -/
def degreeOf (s : State) (c : CircuitNo) : Degree := degree s.mode c

def isEligible (s : State) (c : CircuitNo) (r : Rec) : Bool := eligible (degreeOf s c) r.cls

/-- The best eligible queued record among those whose class breaks into `y` (R120 step 1, R121). -/
def breakerFor (s : State) (c : CircuitNo) (y : Class) : Option Nat :=
  (highest (fun r => isEligible s c r && breaksInto s.circuits[c].desc.bulletinBreak r.cls y) (scoreOf s)
    s.circuits[c].queue).map Prod.fst

inductive Selection where
  | start (i : Nat)
  | resume (r : Rec)
  | report
  | nothing
  deriving DecidableEq, Repr

/-- Steps 3 to 5 of R120. -/
def selectBelowChain (s : State) (c : CircuitNo) : Selection :=
  let best := highest (isEligible s c) (scoreOf s) s.circuits[c].queue
  let claimed := match best with
    | some (_, v) => decide (Config.reportClaim ≤ v)
    | none => false
  if s.mgmt.reportCircuit = c ∧ s.mgmt.reports ≠ [] ∧ claimed = false then .report
  else match best with
    | some (i, _) => .start i
    | none => .nothing

/-- R120: the first step that applies. -/
def choose (s : State) (c : CircuitNo) : Selection :=
  match s.circuits[c].sender.chain.getLast? with
  | none => selectBelowChain s c
  | some top =>
    match breakerFor s c top.cls with
    | some i => .start i
    | none => if degreeOf s c = .notWithheld then .resume top else selectBelowChain s c

/-- R133: a selection made now would not end at step 5. -/
def hasWork (s : State) (c : CircuitNo) : Bool := choose s c ≠ .nothing

/-! ### Generated lines (R140) -/

def breakLine : Text := lineOf (txt "== BREAK ==")

def cutLineText : CutLine → Text
  | .withdrawal => lineOf (txt "== WITHDRAWN ==")
  | .storeCut => lineOf (txt "== CUT ==")

/-- NL if the column is not 0. -/
def freshLine (column : Nat) : Text := if column = 0 then [] else [houseNL]

def gapLine (ts : List TakeNo) : Text :=
  if ts = [] then [] else lineOf (txt "== " ++ joined houseSpace (ts.map takeTok) ++ txt " MISSING ==")

def keyText (s : State) (n : SlotNo) : Text :=
  match s.slots[n].key with
  | some k => keyTok k
  | none => []

def kindSuffix : RecKind → Text
  | .new => []
  | .rpt => txt " RPT"
  | .sub => txt " SUB"
  | .late => txt " LATE"

/-- The header line of a record of take `f.take` in slot `f.slot`, fixed as the slot stands. -/
def headerLine (s : State) (f : RecRef) (r : Rec) : Text :=
  let x := s.slots[f.slot]
  let cat := match x.category with
    | some g => categoryTok g
    | none => []
  let last := if x.lastTake = some f.take then txt "L" else []
  let slug := match x.slug with
    | some t => houseSpace :: t
    | none => []
  lineOf (keyText s f.slot ++ [houseSpace, classLetter r.cls, houseSpace] ++ cat ++
    houseSpace :: takeTok f.take ++ last ++ kindSuffix r.kind ++ slug)

def resumeLine (s : State) (f : RecRef) : Text :=
  lineOf (txt "== RESUME " ++ keyText s f.slot ++ houseSpace :: takeTok f.take ++ txt " ==")

/-! ### Phases of a delivery (R139, R141, R142) -/

/-- The trailer, composed from the cut flag and the column on entering TRAILER (R142). -/
def trailerText (cut : Bool) (column : Nat) : Text :=
  if cut then freshLine column ++ cutLineText .storeCut ++ [houseNL] else freshLine column ++ [houseNL]

/-- Passes over the phases that hold no character: afterwards `phase` is the phase of the next character, or TRAILER with
nothing left once the delivery has finished. -/
def settlePhase (v : Version) (x : Sender) : Sender :=
  let x := if x.phase = .lead ∧ x.lead = [] then { x with phase := .gap } else x
  let x := if x.phase = .gap ∧ x.gap = [] then { x with phase := .header } else x
  let x := if x.phase = .header ∧ x.header = [] then { x with phase := .body } else x
  if x.phase = .body ∧ v.length ≤ x.bodyPos then
    { x with phase := .trailer, tail := trailerText v.cut x.column }
  else x

/-- The delivery has finished: its trailer has been sent (R143). -/
def deliveryFinished (x : Sender) : Bool := x.phase = .trailer && x.tail = []

/-- The next character of what the sender carries, and the sender with that character taken. -/
def nextChar (v : Version) (report : Text) (x : Sender) : Option (House × Sender) :=
  match x.phase with
  | .lead => match x.lead with
    | h :: t => some (h, { x with lead := t })
    | [] => none
  | .gap => match x.gap with
    | h :: t => some (h, { x with gap := t })
    | [] => none
  | .header => match x.header with
    | h :: t => some (h, { x with header := t })
    | [] => none
  | .body => match v.text[x.bodyPos]? with
    | some h => some (h, { x with bodyPos := x.bodyPos + 1 })
    | none => none
  | .trailer => match x.tail with
    | h :: t => some (h, { x with tail := t })
    | [] => none
  | .cut => match x.tail with
    | h :: t => some (h, { x with tail := t })
    | [] => none
  | .report => match report[x.reportPos]? with
    | some h => some (h, { x with reportPos := x.reportPos + 1 })
    | none => none

/-- The text of the version the sender's carried record reads. -/
def carriedVersion (s : State) (x : Sender) : Version :=
  match x.carried with
  | .record r => readVersion s r
  | _ => Version.empty

/-- The oldest report in the report buffer (R144). -/
def oldestReport (s : State) : Text := s.mgmt.reports.headD []

/-- Converts a house character and puts its group on the circuit (R45, R49). -/
def sendChar (s : State) (c : CircuitNo) (h : House) (x : Sender) : Sender :=
  let d := s.circuits[c].desc
  let g := convertOut s.banks[d.bank] d.width x.belief h
  { x with belief := g.2, sending := some { char := h, phase := x.phase, codes := g.1 } }

/-- R137, R138: takes the next character to send, or sends a fold NL before it. -/
def takeNext (s : State) (c : CircuitNo) : State :=
  let x := s.circuits[c].sender
  match nextChar (carriedVersion s x) (oldestReport s) x with
  | none => s
  | some (h, y) =>
    if isAdvancing h ∧ x.column = s.circuits[c].desc.carriage then
      modSender s c fun _ => sendChar s c houseNL x
    else modSender s c fun _ => sendChar s c h y

/-! ### Starting, resuming, pausing and stopping -/

/-- The sender with nothing carried and nothing being sent. -/
def Sender.bare (x : Sender) : Sender :=
  { x with
    carried := .nothing
    phase := .lead
    breakPending := false
    bodyPos := 0
    lineStart := 0
    lead := []
    gap := []
    header := []
    tail := []
    reportPos := 0
    cutTold := none
    sending := none }

/-- The sender in STOPPED: motor off, timers stopped, column 0 (R132). -/
def Sender.halted (x : Sender) : Sender :=
  { x.bare with state := .stopped, motor := false, motorTimer := none, runOnTimer := none, column := 0 }

/-- R135, R139, R149: the sender carrying a record from its start. With a resume offset it begins with the resume line,
otherwise with its gap notice and header; the break prelude comes before either. The header is fixed at the start, and a
record that resumes has it as it was fixed then (R140). -/
def beginRecord (s : State) (r : Rec) (prelude : Bool) (x : Sender) : Sender :=
  let y := { x.bare with
    state := .carrying, motorTimer := none, runOnTimer := none, carried := .record r
    bodyPos := r.resume.getD 0, lineStart := r.resume.getD 0 }
  let pre := if prelude then freshLine x.column ++ breakLine else []
  match r.ref with
  | none => { y with lead := pre }
  | some f =>
    match r.resume with
    | some _ => { y with lead := pre ++ resumeLine s f }
    | none => { y with lead := pre, gap := gapLine r.gap, header := r.composed.getD (headerLine s f r) }

/-- The sender carries the record and takes its first character. -/
def carryRecord (s : State) (c : CircuitNo) (r : Rec) (prelude : Bool) : State :=
  takeNext (modSender s c fun x => settlePhase (readVersion s r) (beginRecord s r prelude x)) c

/-- R144: the sender carries the oldest report and takes its first character. -/
def carryReport (s : State) (c : CircuitNo) : State :=
  takeNext (modSender s c fun x =>
    { x.bare with state := .carrying, motorTimer := none, runOnTimer := none, carried := .report, phase := .report }) c

/-- R136: enters PAUSING and loads the run-on; a run-on of 0 expires at once. -/
def enterPausing (s : State) (c : CircuitNo) : State :=
  let d := s.circuits[c].desc.runOn
  if d = 0 then modSender s c Sender.halted
  else modSender s c fun x =>
    { x.bare with state := .pausing, motorTimer := none, runOnTimer := some d, column := 0 }

/-- R122, R135: makes a selection for a ready sender and acts on the answer. -/
def select (s : State) (c : CircuitNo) : State :=
  match choose s c with
  | .start i =>
    match s.circuits[c].queue[i]? with
    | some r => carryRecord (modQueue s c fun q => withoutAt q i) c r false
    | none => s
  | .resume r => carryRecord (modSender s c fun x => { x with chain := x.chain.dropLast }) c r false
  | .report => carryReport s c
  | .nothing => if s.circuits[c].sender.state = .pausing then s else enterPausing s c

/-- R134: the motor start timer of a STARTING sender expires, and the sender asks for a selection. -/
def motorReady (c : CircuitNo) (s : State) : State :=
  if s.circuits[c].sender.state = .starting then select (modSender s c fun x => { x with motorTimer := none }) c else s

/-- R134: enters STARTING; a motor start delay of 0 expires at once and the sender selects. -/
def enterStarting (s : State) (c : CircuitNo) : State :=
  let d := s.circuits[c].desc.motorDelay
  let t := modSender s c fun x =>
    { x with state := .starting, motor := true, belief := .unknown, motorTimer := some d }
  if d = 0 then select (modSender t c fun x => { x with motorTimer := none }) c else t

/-- R133: a STOPPED sender of an in-service circuit enters STARTING if it has work. -/
def workTest (s : State) (c : CircuitNo) : State :=
  if s.circuits[c].sender.state = .stopped ∧ circuitInService s.circuits[c] ∧ hasWork s c then enterStarting s c else s

/-- The sender is offered work: STOPPED it tests for work (R133), PAUSING it selects (R136), otherwise nothing. -/
def offer (s : State) (c : CircuitNo) : State :=
  match s.circuits[c].sender.state with
  | .stopped => workTest s c
  | .pausing => select s c
  | _ => s

/-- R146: break pending is set by a joining record of class `x`. -/
def breakIfPending (s : State) (c : CircuitNo) (x : Class) : State :=
  match s.circuits[c].sender.carried with
  | .record r =>
    if r.ref ≠ none ∧ breaksInto s.circuits[c].desc.bulletinBreak x r.cls ∧ eligible (degreeOf s c) x then
      modSender s c fun y => { y with breakPending := true }
    else s
  | _ => s

/-- R112: the sender of a circuit is told that a record of class `x` has joined its queue. -/
def tellJoined (s : State) (c : CircuitNo) (x : Class) : State :=
  match s.circuits[c].sender.state with
  | .carrying => breakIfPending s c x
  | _ => offer s c

/-- R112: a record joins the tail of a circuit's queue. -/
def joinQueue (s : State) (c : CircuitNo) (r : Rec) : State :=
  tellJoined (modQueue s c fun q => q ++ [r]) c r.cls

/-! ### Withholding at a sender (R151) -/

/-- R151: what the sender carries is allowed. -/
def carriedAllowed (s : State) (c : CircuitNo) : Bool :=
  match s.circuits[c].sender.carried with
  | .record r => s.circuits[c].sender.phase = .cut || eligible (degreeOf s c) r.cls
  | _ => true

/-- R151, left column: withholding on the circuit begins or widens. -/
def tellWithheldMore (s : State) (c : CircuitNo) : State :=
  match s.circuits[c].sender.state with
  | .starting => if hasWork s c then s else modSender s c Sender.halted
  | .carrying =>
    if carriedAllowed s c then s
    else modSender s c fun x => { x with state := .closing, breakPending := false }
  | _ => s

/-- R151, right column: withholding on the circuit ends or narrows. -/
def tellWithheldLess (s : State) (c : CircuitNo) : State := offer s c

end Sys2Proof.Machine
end

