-- ==== Sys2Proof/Machine/Flags.lean ====
section
/-!
DEFINITION. Machine/Flags.lean: the report buffer (R172, R173) and the event latch with its alerts (R181–R184). Raising an
event may place an alert, and placing a report offers it to the report circuit's sender.
-/
namespace Sys2Proof.Machine

open Sys2Proof

/-! ### Placing a report (R172) -/

/-- A report joins the buffer as the newest and is offered to the report circuit. -/
def pushReport (s : State) (t : Text) : State :=
  offer (modMgmt s fun m => { m with reports := m.reports ++ [t] }) s.mgmt.reportCircuit

def reportRoom (s : State) : Bool := s.mgmt.reports.length < Config.reportBufferSize

/-- The closing line of every report. -/
def closingLine : Text := lineOf (txt "//E")

/-! ### The latch -/

/-- Place of a kind in the priority order, counted from 0 (R180). -/
def kindIdx : EventKind → Fin 12
  | .checkFailed => 0
  | .storeFull => 1
  | .poolEmpty => 2
  | .deliveryMissed => 3
  | .lineBreak => 4
  | .takeCut => 5
  | .headerFault => 6
  | .standingRefused => 7
  | .lineSilent => 8
  | .framing => 9
  | .reportDropped => 10
  | .takeGap => 11

/-- The kinds in priority order (R180). -/
def allKinds : List EventKind :=
  [.checkFailed, .storeFull, .poolEmpty, .deliveryMissed, .lineBreak, .takeCut, .headerFault, .standingRefused,
    .lineSilent, .framing, .reportDropped, .takeGap]

def entryOf (s : State) (k : EventKind) : LatchEntry := s.latch.entries[kindIdx k]

def modEntry (s : State) (k : EventKind) (f : LatchEntry → LatchEntry) : State :=
  { s with latch := { s.latch with entries := modAt s.latch.entries (kindIdx k) f } }

/-- The name, detail and count of a kind as result tokens (R182, R183). -/
def entryToks (k : EventKind) (e : LatchEntry) : List Text :=
  eventTok k :: (match e.detail with
    | some d => detailToks d
    | none => []) ++ [decimal e.count]

/-- R183: the two lines of an alert, as the entry stands. -/
def alertText (k : EventKind) (e : LatchEntry) : Text :=
  lineOf (txt "//A" ++ ((entryToks k e).map (houseSpace :: ·)).flatten) ++ closingLine

/-- R183, R184: a kind's alert falls due. It is placed if the buffer has room, and otherwise the kind is owed. -/
def alertDue (s : State) (k : EventKind) : State :=
  if reportRoom s then pushReport s (alertText k (entryOf s k))
  else modEntry s k fun e => { e with owed := true }

/-- R181: an occurrence of a kind reaches the latch. -/
def raise (s : State) (k : EventKind) (d : Detail) : State :=
  let e := entryOf s k
  if e.latched then modEntry s k fun e => { e with count := satInc Config.repeatTop e.count }
  else
    let t := modEntry s k fun e => { e with latched := true, detail := some d, count := 1 }
    if s.latch.alertMode && !e.masked then alertDue t k else t

/-- A kind is cleared: flag, owed mark, detail and count (R182, R185). The mask stays. -/
def clearEntry (e : LatchEntry) : LatchEntry := { LatchEntry.clear with masked := e.masked }

/-- R184: one owed kind's alert is composed if the buffer has room. -/
def payOwed (s : State) (k : EventKind) : State :=
  if (entryOf s k).owed && reportRoom s then
    pushReport (modEntry s k fun e => { e with owed := false }) (alertText k (entryOf s k))
  else s

/-- R173, R184: the oldest report leaves the buffer, and owed alerts are composed into the room, in priority order. -/
def reportLeaves (s : State) : State :=
  allKinds.foldl payOwed (modMgmt s fun m => { m with reports := m.reports.tail })

/-- R172: a reply or short reply is placed, or dropped with REPORT_DROPPED latched when the buffer is full. -/
def placeReply (s : State) (t : Text) : State :=
  if reportRoom s then pushReport s t else raise s .reportDropped .none

end Sys2Proof.Machine
end

