-- ==== Sys2Proof/Machine/Printing.lean ====
section
/-!
DEFINITION. Machine/Printing.lean: the event "a character has been sent" at a circuit's sender (R137): cuts (R150, R145),
finishes (R143, R144), break-ins (R147, R148), closes (R152) and hand-backs (R123); and the events of groups with no codes,
which fall due at once (R49).
-/
namespace Sys2Proof.Machine

open Sys2Proof

/-- R138, R141: the column and line start after a character has been sent; nothing is being sent any more. -/
def afterSent (g : Sending) (x : Sender) : Sender :=
  { x with
    sending := none
    column := if g.char = houseNL then 0 else if isAdvancing g.char then x.column + 1 else x.column
    lineStart := if g.char = houseNL ∧ g.phase = .body then x.bodyPos else x.lineStart }

/-- R150 steps 1 to 3, R145: the sender enters CUT and begins the line it was told to print. -/
def startCut (s : State) (c : CircuitNo) : State :=
  takeNext (modSender s c fun x =>
    { x with
      phase := .cut, breakPending := false, lead := [], gap := [], header := []
      tail := freshLine x.column ++ cutLineText (x.cutTold.getD .storeCut) }) c

/-- R150 steps 4 and 5: the cut has been printed. -/
def finishCut (s : State) (c : CircuitNo) (r : Rec) : State := select (returnRecord (modSender s c Sender.bare) r) c

/-- R143: the delivery finishes. -/
def finishDelivery (s : State) (c : CircuitNo) (r : Rec) : State :=
  select (returnRecord (modSender s c fun x => { x.bare with completed := count x.completed }) r) c

/-- R148 step 1: the resume offset of a record that is broken into. -/
def brokenOffset (x : Sender) (r : Rec) : Option Nat :=
  match x.phase with
  | .body => some x.lineStart
  | .header => some (r.resume.getD 0)
  | _ => r.resume

/-- R148, R140: the record as it stands in the chain. Broken off before its header it keeps the header line fixed at its
start, which it resumes with. -/
def suspended (x : Sender) (r : Rec) : Rec :=
  let o := brokenOffset x r
  { r with resume := o, composed := if o = none then some x.header else none }

/-- R148: the break is made; the breaker is the queued record at `i`. -/
def makeBreak (s : State) (c : CircuitNo) (r : Rec) (i : Nat) (b : Rec) : State :=
  let a := modSender s c fun x => { x with chain := x.chain ++ [suspended x r], breaksIn := count x.breaksIn }
  carryRecord (modQueue a c fun q => withoutAt q i) c b true

/-- R147: break pending at a character-sent event; it has been cleared already. -/
def takeBreak (s : State) (c : CircuitNo) (r : Rec) : State :=
  if s.circuits[c].sender.phase = .trailer then takeNext s c
  else match breakerFor s c r.cls with
    | none => takeNext s c
    | some i => match s.circuits[c].queue[i]? with
      | some b => makeBreak s c r i b
      | none => takeNext s c

/-- R123 step 2: a record that read a superseded version is changed to read the current one. -/
def toCurrent (r : Rec) (f : RecRef) : Rec :=
  { r with
    ref := some { f with version := .current }
    resume := none
    kind := match r.kind with
      | .rpt => .rpt
      | _ => .sub }

/-- R123 step 3: the queue holds a record of the same take and kind. -/
def sameQueued (q : List Rec) (f : RecRef) (k : RecKind) : Bool := q.any fun r => ofTake f.slot f.take r && r.kind = k

/-- R123 steps 3 and 4: a record that reads the current version goes back to the head of its queue, or to the pool. From the
queue it is started anew, with a header line of its own (R140). -/
def handBackCurrent (s : State) (c : CircuitNo) (r : Rec) (f : RecRef) : State :=
  if sameQueued s.circuits[c].queue f r.kind then returnRecord s r
  else modQueue s c fun q => { r with composed := none } :: q

/-- R123: a record handed back at the end of a close. -/
def handBack (s : State) (c : CircuitNo) (r : Rec) : State :=
  match r.ref with
  | none => returnRecord s r
  | some f => match f.version with
    | .current => handBackCurrent s c r f
    | .superseded =>
      handBackCurrent (modSlot s f.slot fun x => dropReader x f.take) c (toCurrent r f) { f with version := .current }

/-- R152 step 3: the resume offset of a record whose close ends. `last` is the phase of the character that ended the print
line; a close that finished the header line leaves the offset as it is (notes/assumptions/8.md). -/
def closedOffset (x : Sender) (last : Phase) (r : Rec) : Option Nat :=
  if x.phase = .body ∧ last ≠ .header then some x.bodyPos else r.resume

/-- R152 step 3 and what follows it: the close ends. A sender with work selects at once and does not pause first, so a
run-on of 0 stops no motor that has work (notes/assumptions/9.md). -/
def closeEnds (s : State) (c : CircuitNo) (r : Rec) (last : Phase) : State :=
  let x := s.circuits[c].sender
  let a := handBack (modSender s c Sender.bare) c { r with resume := closedOffset x last r }
  if hasWork a c then select a c else enterPausing a c

/-- R147, R152: a record that is neither cut nor finished, its phase settled. -/
def goOn (s : State) (c : CircuitNo) (r : Rec) (last : Phase) : State :=
  let x := s.circuits[c].sender
  if x.state = .closing then
    if x.column = 0 ∧ x.phase ≠ .trailer then closeEnds s c r last else takeNext s c
  else if x.breakPending then takeBreak (modSender s c fun y => { y with breakPending := false }) c r
  else takeNext s c

/-- The event at a sender that carries a record. -/
def recordSent (s : State) (c : CircuitNo) (r : Rec) (last : Phase) : State :=
  let x := s.circuits[c].sender
  if x.phase = .cut then (if x.tail = [] then finishCut s c r else takeNext s c)
  else if r.ref = none then startCut s c
  else
    let y := settlePhase (readVersion s r) x
    let a := modSender s c fun _ => y
    if deliveryFinished y then finishDelivery a c r else goOn a c r last

/-- The event at a sender that carries a report (R144, R145). -/
def reportSent (s : State) (c : CircuitNo) : State :=
  let x := s.circuits[c].sender
  if x.phase = .cut then (if x.tail = [] then select (modSender s c Sender.bare) c else takeNext s c)
  else if x.cutTold ≠ none then startCut s c
  else if (oldestReport s).length ≤ x.reportPos then select (reportLeaves (modSender s c Sender.bare)) c
  else takeNext s c

/-- R137: the last code of the group being sent on `c` has been sent. With nothing being sent there is no such event. -/
def charSent (s : State) (c : CircuitNo) : State :=
  match s.circuits[c].sender.sending with
  | none => s
  | some g =>
    let a := modSender s c (afterSent g)
    match a.circuits[c].sender.carried with
    | .nothing => a
    | .report => reportSent a c
    | .record r => recordSent a c r g.phase

/-! ### Groups with no codes (R49) -/

/-- The lowest circuit whose group in progress holds no code. -/
def dueAtOnce (s : State) : Option CircuitNo :=
  (List.finRange 16).find? fun c => (s.circuits[c].sender.sending.map Sending.codes) = some []

/-- Takes the character-sent events that are due at once, until none is or `fuel` runs out. -/
def sendEmpty : Nat → State → State
  | 0, s => s
  | fuel + 1, s =>
    match dueAtOnce s with
    | none => s
    | some c => sendEmpty fuel (charSent s c)

/-- The state once every character-sent event that falls due at once has been taken. -/
def atOnce (s : State) : State := sendEmpty Config.atOnceLimit s

end Sys2Proof.Machine
end

