-- ==== Sys2Proof/Machine/Routing.lean ====
section
/-!
DEFINITION. Machine/Routing.lean: routing a release (R94–R97) and making delivery records for the routed circuits (R113),
with misses (R115) and displacement (R116).
-/
namespace Sys2Proof.Machine

open Sys2Proof

/-! ### Matching (R94) -/

def letterMatches (p : Option Letter) (l : Letter) : Bool :=
  match p with
  | none => true
  | some q => q = l

def agencyMatches (p : Option Agency) (a : Agency) : Bool :=
  match p with
  | none => true
  | some q => q = a

/-- R94. -/
def entryMatches (e : RouteEntry) (cat : Category) (ag : Agency) (c : Class) : Bool :=
  e.inUse && letterMatches e.cat1 cat.first && letterMatches e.cat2 cat.second && letterMatches e.cat3 cat.third &&
    agencyMatches e.agency ag && atOrAbove c e.floor

/-- R95: the matching entries, in order, up to and including the first with its stop flag set. -/
def scan (cat : Category) (ag : Agency) (c : Class) : List RouteEntry → List RouteEntry
  | [] => []
  | e :: es =>
    if entryMatches e cat ag c then (if e.stop then [e] else e :: scan cat ag c es) else scan cat ag c es

/-- R95: the match set, `none` when no entry matched. -/
def matchSet (s : State) (cat : Category) (ag : Agency) (c : Class) : Option CircuitSet :=
  match scan cat ag c s.routes.toList with
  | [] => none
  | es => some (es.foldl (fun u e => unionOf u e.circuits) (noneOf 16))

/-- R96: the routed set, in ascending circuit order. -/
def routedSet (s : State) (cat : Category) (ag : Agency) (c : Class) : List CircuitNo :=
  let u := (matchSet s cat ag c).getD s.defaultSet
  let u := if c = .flash then unionOf u s.flashSet else u
  (members u).filter fun i => circuitInService s.circuits[i]

/-! ### Making records (R113–R116) -/

/-- The record a making gives each circuit (R113). -/
def freshRecord (n : SlotNo) (t : TakeNo) (c : Class) (k : RecKind) (gap : List TakeNo) : Rec :=
  { ref := some { slot := n, take := t, version := .current }, cls := c, kind := k, gap := gap, age := 0, resume := none
    composed := none }

/-- The slot a record names has one more record (R62). -/
def addPending (s : State) (n : SlotNo) : State := modSlot s n fun x => { x with pendingCount := x.pendingCount + 1 }

def countMissed (s : State) (c : CircuitNo) : State := modSender s c fun x => { x with missed := count x.missed }

/-- A record is made from a free record and joins the tail of the queue (R113). -/
def makeFree (s : State) (c : CircuitNo) (n : SlotNo) (r : Rec) : State :=
  joinQueue (addPending { s with freeCount := s.freeCount - 1 } n) c r

/-- R115: the record is missed on the circuit. -/
def miss (s : State) (c : CircuitNo) : State := raise (countMissed s c) .poolEmpty (.circuit c)

/-- R116: a candidate for displacement. -/
def displaceable (r : Rec) : Bool := r.cls = .routine || r.cls = .deferred

/-- The DELIVERY_MISSED event of a record (R116, R154); a record that names no story raises nothing. -/
def raiseMissed (s : State) (c : CircuitNo) (k : Option Key) : State :=
  match k with
  | some key => raise s .deliveryMissed (.circuitKey c key)
  | none => s

/-- R116: the queued record at `i` is displaced and made into the flash's record. -/
def displaceAt (s : State) (c : CircuitNo) (i : Nat) (old : Rec) (n : SlotNo) (r : Rec) : State :=
  let k := keyOfRecord s old
  let a := unnameIn (modQueue s c fun q => withoutAt q i) old.ref
  joinQueue (addPending (raiseMissed (countMissed a c) c k) n) c r

/-- R117: a record has been returned to the pool between `s` and `t`, or one has been started on circuit `d`. -/
def freedOrStarted (s t : State) (d : CircuitNo) : Bool :=
  s.freeCount < t.freeCount ||
    (t.circuits[d].queue ≠ s.circuits[d].queue && t.circuits[d].queue.length ≤ s.circuits[d].queue.length)

/-- R117: an event taken before a circuit's turn, if a record returns to the pool or is started by it. -/
def takenBeforeTurn (s : State) (i : Instr) : State :=
  match i with
  | .characterSent d => if freedOrStarted s (charSent s d) d then charSent s d else s
  | .motorStartTimerExpires d => if freedOrStarted s (motorReady d s) d then motorReady d s else s
  | _ => s

/-- R113, R115, R116: one circuit's turn in a making for the slot `n`. -/
def turnFor (n : SlotNo) (r : Rec) (s : State) (c : CircuitNo) : State :=
  if 0 < s.freeCount then makeFree s c n r
  else if r.cls = .flash then
    match lowest displaceable (scoreOf s) s.circuits[c].queue with
    | none => miss s c
    | some (i, _) => match s.circuits[c].queue[i]? with
      | some old => displaceAt s c i old n r
      | none => miss s c
  else miss s c

/-- R117: the returns and starts taken before a circuit's turn, and the turn. -/
def makeTurn (n : SlotNo) (r : Rec) (s : State) (c : CircuitNo) : State := turnFor n r (inGap takenBeforeTurn s) c

/-- R113: the circuits' turns, in the order given. -/
def makeRecords (s : State) (cs : List CircuitNo) (n : SlotNo) (r : Rec) : State := cs.foldl (makeTurn n r) s

/-- The circuits of a slot's story for a take of class `c` (R97). A slot with no key or category is not routed. -/
def routeStory (s : State) (n : SlotNo) (c : Class) : List CircuitNo :=
  match s.slots[n].key, s.slots[n].category with
  | some k, some g => routedSet s g k.agency c
  | _, _ => []

end Sys2Proof.Machine
end

