-- ==== Sys2Proof/Machine/Store.lean ====
section
/-!
DEFINITION. Machine/Store.lean: the story store (spec/04_the_story_store.md): allocation and eviction, opening, filling and
ending a take, the order gate, substitutes, and the store's reach into records and framers.
-/
namespace Sys2Proof.Machine

open Sys2Proof

/-! ### Slots (R58, R64, R65) -/

/-- FILLING, CUT-FILLING or WAITING. -/
def busyTake (k : Take) : Bool := k.state ≠ .released

/-- Stored: WAITING or RELEASED (R60). -/
def storedTake (k : Take) : Bool := k.state = .waiting || k.state = .released

/-- Being filled: FILLING or CUT-FILLING. -/
def fillingTake (k : Take) : Bool := k.state = .filling || k.state = .cutFilling

/-- The takes present in a slot, in take order. -/
def presentTakes (x : Slot) : List (TakeNo × Take) :=
  (List.finRange 12).filterMap fun t => x.takes[t].map fun k => (t, k)

/-- R65: not held, no take FILLING, CUT-FILLING or WAITING, pending count 0. -/
def evictable (x : Slot) : Bool :=
  x.state = .occupied && !x.held && (presentTakes x).all (fun p => !busyTake p.2) && x.pendingCount = 0

/-- The OCCUPIED slot with a key. -/
def lookup (s : State) (k : Key) : Option SlotNo :=
  (List.finRange 40).find? fun n => s.slots[n].state = .occupied && s.slots[n].key = some k

/-- R61: the least recent slot of the group that satisfies `p`. -/
def leastRecent (s : State) (p : Slot → Bool) : Option SlotNo := (s.recency.filter fun n => p s.slots[n]).getLast?

/-- R65: the slot that would be allocated: the least recent FREE slot, else the least recent evictable one. -/
def slotToAllocate (s : State) : Option SlotNo :=
  match leastRecent s (fun x => x.state = .free) with
  | some n => some n
  | none => leastRecent s evictable

/-- R65: the slot is freed if it held a story, and becomes OCCUPIED with the key, at the front. -/
def allocate (s : State) (n : SlotNo) (k : Key) : State :=
  slotToFront (modSlot s n fun _ => { Slot.freed with state := .occupied, key := some k }) n

/-! ### Opening a take (R65–R68) -/

/-- What a framer hands over (R24). -/
structure CopyHeader where
  key : Key
  cls : Class
  category : Category
  take : TakeNo
  last : Bool
  sub : Bool
  slug : Option Text
  deriving DecidableEq, Repr

inductive StoreAnswer where
  | opened (n : SlotNo) (t : TakeNo)
  | duplicate
  | full
  | fault
  deriving DecidableEq, Repr

/-- R66: the header breaks the order of the story's last take. -/
def takeOrderFault (x : Slot) (h : CopyHeader) : Bool :=
  (h.last && (presentTakes x).any fun p => h.take < p.1) ||
    match x.lastTake with
    | some t => t < h.take
    | none => false

/-- R67: the record of a first arrival. -/
def firstTake (l : LineNo) (h : CopyHeader) : Take :=
  { state := .filling
    fillingLine := some l
    cls := h.cls
    current := Version.empty
    replacement := none
    superseded := none
    releasedFlag := false
    subCount := if h.sub then 1 else 0
    late := false
    waitTimer := none }

/-- R66: a take with the L flag, opened without a fault, becomes the story's last take. -/
def withLast (x : Slot) (h : CopyHeader) : Slot := if h.last then { x with lastTake := some h.take } else x

/-- R67: opens a first arrival; a slot with no takes has its category and slug from this header. -/
def openFirst (l : LineNo) (h : CopyHeader) (x : Slot) : Slot :=
  let y := if (presentTakes x).isEmpty then { x with category := some h.category, slug := h.slug } else x
  withLast { y with takes := put y.takes h.take (some (firstTake l h)) } h

/-- R68: opens a substitute over a stored take. -/
def openSubstitute (l : LineNo) (h : CopyHeader) (x : Slot) : Slot :=
  withLast { x with takes := modAt x.takes h.take (Option.map fun k =>
    { k with state := .filling, fillingLine := some l, replacement := some (Version.empty, h.cls), waitTimer := none }) } h

/-- R65–R68: the store decides a hand-over. -/
def handOver (s : State) (l : LineNo) (h : CopyHeader) : State × StoreAnswer :=
  match lookup s h.key with
  | none => match slotToAllocate s with
    | none =>
      (modLineCounters (raise s .storeFull (.lineKey l h.key)) l fun c => { c with refused := count c.refused }, .full)
    | some n => (modSlot (allocate s n h.key) n (openFirst l h), .opened n h.take)
  | some n =>
    if takeOrderFault s.slots[n] h then
      (modLineCounters (raise s .headerFault (.line l)) l fun c => { c with headerFaults := count c.headerFaults }, .fault)
    else match takeAt s n h.take with
      | none => (modSlot s n (openFirst l h), .opened n h.take)
      | some k =>
        if h.sub && storedTake k then (modSlot s n (openSubstitute l h), .opened n h.take)
        else (modLineCounters s l fun c => { c with duplicates := count c.duplicates }, .duplicate)

/-! ### Filling (R69, R70) -/

/-- R60: the version being filled. -/
def fillingVersion (k : Take) : Version :=
  match k.replacement with
  | some (v, _) => v
  | none => k.current

def withFilling (k : Take) (v : Version) : Take :=
  match k.replacement with
  | some (_, c) => { k with replacement := some (v, c) }
  | none => { k with current := v }

/-- The TAKE_CUT event of a take (R70, R71). -/
def raiseTakeCut (s : State) (n : SlotNo) (t : TakeNo) : State :=
  match s.slots[n].key with
  | some k => raise s .takeCut (.keyTake k t)
  | none => s

/-- R69, R70: a character handed over for a take. -/
def writeChar (s : State) (n : SlotNo) (t : TakeNo) (h : House) : State :=
  match takeAt s n t with
  | none => s
  | some k =>
    if k.state = .filling then
      let v := fillingVersion k
      if v.length % Config.blockSize = 0 then
        match lowestFree s.slots[n].blockMap with
        | some b =>
          modSlot s n fun x =>
            { x with
              takes := put x.takes t (some (withFilling k { v with blocks := v.blocks ++ [b], text := v.text ++ [h] }))
              blockMap := put x.blockMap b true }
        | none =>
          raiseTakeCut (modTake s n t fun _ => { withFilling k { v with cut := true } with state := .cutFilling }) n t
      else modTake s n t fun _ => withFilling k { v with text := v.text ++ [h] }
    else s

/-! ### The order gate (R72–R77) -/

/-- R72: take number `k` is cleared. -/
def cleared (x : Slot) (k : TakeNo) : Bool :=
  (match x.takes[k] with
    | some t => t.releasedFlag
    | none => false) || x.passed[k]

def lowerCleared (x : Slot) (t : TakeNo) : Bool := (List.finRange 12).all fun k => !decide (k < t) || cleared x k

def isWaiting (x : Slot) (t : TakeNo) : Bool :=
  match x.takes[t] with
  | some k => k.state = .waiting
  | none => false

def isStored (x : Slot) (t : TakeNo) : Bool :=
  match x.takes[t] with
  | some k => storedTake k
  | none => false

/-- R77: the records of a release or re-release of take `t`, for the routed circuits but those in `but`. -/
def makeFor (s : State) (n : SlotNo) (t : TakeNo) (k : RecKind) (gap : List TakeNo) (but : List CircuitNo) : State :=
  match takeAt s n t with
  | none => s
  | some x => makeRecords s ((routeStory s n x.cls).filter fun c => !decide (c ∈ but)) n (freshRecord n t x.cls k gap)

/-- R77: take `t` is released with records of kind `k`. -/
def releaseTake (s : State) (n : SlotNo) (t : TakeNo) (k : RecKind) (gap : List TakeNo) : State :=
  makeFor (modTake s n t fun x => { x with state := .released, waitTimer := none, releasedFlag := true }) n t k gap []

/-- R72: the lowest-numbered WAITING take all of whose lower numbers are cleared. -/
def nextReady (x : Slot) : Option TakeNo := (List.finRange 12).find? fun t => isWaiting x t && lowerCleared x t

/-- R72: the gate looks for waiting takes to release, again and again until none qualifies; a story has 12 takes. -/
def searchGate : Nat → State → SlotNo → State
  | 0, s, _ => s
  | fuel + 1, s, n =>
    match nextReady s.slots[n] with
    | none => s
    | some t => searchGate fuel (releaseTake s n t .new []) n

def gateSearch (s : State) (n : SlotNo) : State := searchGate 12 s n

/-- R74: the numbers passed by an expiry of take `m`. -/
def passedBy (x : Slot) (m : TakeNo) : List TakeNo :=
  (List.finRange 12).filter fun k => decide (k < m) && !cleared x k && !isStored x k

/-- R74: the gap notice of take `t`: the numbers just below it, down to the next one that was not passed. -/
def gapNotice (passed : List TakeNo) (t : TakeNo) : List TakeNo :=
  (List.finRange 12).filter fun j =>
    decide (j < t) && (List.finRange 12).all fun i => !(decide (j ≤ i) && decide (i < t)) || decide (i ∈ passed)

/-- R74: the WAITING takes numbered `m` or below. -/
def waitingUpTo (x : Slot) (m : TakeNo) : List TakeNo :=
  (List.finRange 12).filter fun t => decide (t ≤ m) && isWaiting x t

/-- R74: the wait timer of take `m` expires. -/
def expireWait (s : State) (n : SlotNo) (m : TakeNo) : State :=
  let gone := passedBy s.slots[n] m
  let due := waitingUpTo s.slots[n] m
  let a := modSlot s n fun x => { x with passed := unionOf x.passed (setOf gone) }
  let b := due.foldl (fun u t => releaseTake u n t .new (gapNotice gone t)) a
  let d := gateSearch b n
  match gone, s.slots[n].key with
  | g :: _, some k => raise d .takeGap (.keyTake k g)
  | _, _ => d

/-- R75: a take whose number was passed is released late. -/
def releaseLate (s : State) (n : SlotNo) (t : TakeNo) : State :=
  releaseTake (modSlot s n fun x =>
    { x with passed := put x.passed t false, takes := modAt x.takes t (Option.map fun k => { k with late := true }) })
    n t .late []

/-- R72, R73: the gate decides a stored take. With a wait limit of 0 the timer expires at once. -/
def gate (s : State) (n : SlotNo) (t : TakeNo) : State :=
  if s.slots[n].passed[t] then gateSearch (releaseLate s n t) n
  else if lowerCleared s.slots[n] t then gateSearch (releaseTake s n t .new []) n
  else
    let w := modTake s n t fun k => { k with state := .waiting, waitTimer := some s.takeWait }
    if s.takeWait = 0 then expireWait w n t else w

/-! ### Records the store removes or detaches (R63) -/

/-- Numbers of queued records removed, carried deliveries cut and suspended records removed. -/
structure Tally where
  queued : Nat
  carried : Nat
  suspended : Nat
  deriving DecidableEq, Repr

/-- R63: the carried record, if it satisfies `p`, is detached and its sender told to cut with `line`. -/
def detachCarried (p : Rec → Bool) (line : CutLine) (s : State) (c : CircuitNo) : State :=
  match s.circuits[c].sender.carried with
  | .record r =>
    if p r then
      unnameIn (modSender s c fun x => { x with carried := .record { r with ref := none }, cutTold := some line }) r.ref
    else s
  | _ => s

def carriedCount (p : Rec → Bool) (x : Sender) : Nat :=
  match x.carried with
  | .record r => if p r then 1 else 0
  | _ => 0

/-- R63 on one circuit: its queued and suspended records that satisfy `p` return to the pool, its carried one is detached. -/
def pullCircuit (p : Rec → Bool) (line : CutLine) (s : State) (c : CircuitNo) : State :=
  let q := s.circuits[c].queue
  let ch := s.circuits[c].sender.chain
  let a := modCircuit s c fun x =>
    { x with queue := q.filter (fun r => !p r), sender := { x.sender with chain := ch.filter fun r => !p r } }
  detachCarried p line (returnRecords a (q.filter p ++ ch.filter p)) c

/-- R63 on every circuit. -/
def pullRecords (p : Rec → Bool) (line : CutLine) (s : State) : State :=
  (List.finRange 16).foldl (pullCircuit p line) s

/-- What `pullRecords` would remove and cut. -/
def tallyOf (p : Rec → Bool) (s : State) : Tally :=
  { queued := ((List.finRange 16).map fun c => (s.circuits[c].queue.filter p).length).sum
    carried := ((List.finRange 16).map fun c => carriedCount p s.circuits[c].sender).sum
    suspended := ((List.finRange 16).map fun c => (s.circuits[c].sender.chain.filter p).length).sum }

/-- The record names slot `n`. -/
def names (n : SlotNo) (r : Rec) : Bool :=
  match r.ref with
  | some f => f.slot = n
  | none => false

/-- The record reads version `v` of take `t` of slot `n`. -/
def reads (n : SlotNo) (t : TakeNo) (v : ReadVersion) (r : Rec) : Bool :=
  r.ref = some { slot := n, take := t, version := v }

/-- R35: the framers filling a take of a slot that satisfies `p` are switched to DISCARD. -/
def switchFramers (p : SlotNo → Bool) (s : State) : State :=
  { s with lines := mapAll s.lines fun x =>
    match x.framer.takeRef with
    | some (n, _) =>
      if p n then { x with framer := { x.framer with state := .discard, takeRef := none, held := 0 } } else x
    | none => x }

/-! ### Substitutes (R78–R81) -/

/-- R76: the take's superseded version, if any, is freed. -/
def freeSuperseded (x : Slot) (t : TakeNo) : Slot :=
  match x.takes[t] with
  | none => x
  | some k => match k.superseded with
    | none => x
    | some (v, _) =>
      { x with
        takes := put x.takes t (some { k with superseded := none })
        blockMap := freeBlocks x.blockMap v.blocks }

/-- R79: the superseded version is dropped, and its readers with it. -/
def dropSuperseded (s : State) (n : SlotNo) (t : TakeNo) : State :=
  modSlot (pullRecords (reads n t .superseded) .storeCut s) n fun x => freeSuperseded x t

/-- A reader of the current version of take `t` made a reader of the superseded one (R78). -/
def toSuperseded (n : SlotNo) (t : TakeNo) (r : Rec) : Rec :=
  if reads n t .current r then { r with ref := some { slot := n, take := t, version := .superseded } } else r

/-- The number of carried and suspended records that satisfy `p`. -/
def readerCount (p : Rec → Bool) (s : State) : Nat := (tallyOf p s).carried + (tallyOf p s).suspended

/-- R78 step 2: carried and suspended readers of the current version now read the superseded one. -/
def moveReaders (s : State) (n : SlotNo) (t : TakeNo) : State :=
  { s with circuits := mapAll s.circuits fun x =>
    { x with sender := { x.sender with
      chain := x.sender.chain.map (toSuperseded n t)
      carried := match x.sender.carried with
        | .record r => .record (toSuperseded n t r)
        | y => y } } }

/-- R78 steps 2 to 4 in the slot: `readers` read the version that is replaced. -/
def replaceVersion (readers : Nat) (t : TakeNo) (x : Slot) : Slot :=
  match x.takes[t] with
  | none => x
  | some k => match k.replacement with
    | none => x
    | some (v, c) =>
      let y := { k with
        current := v, cls := c, replacement := none
        superseded := if readers = 0 then none else some (k.current, readers)
        subCount := satInc Config.subCountTop k.subCount }
      { x with
        takes := put x.takes t (some y)
        blockMap := if readers = 0 then freeBlocks x.blockMap k.current.blocks else x.blockMap }

/-- R80: a queued record rewritten by a substitute. -/
def rewrite (n : SlotNo) (t : TakeNo) (r : Rec) : Rec :=
  if ofTake n t r then
    { r with
      ref := some { slot := n, take := t, version := .current }
      resume := none
      composed := none
      kind := if r.kind = .rpt then .rpt else .sub }
  else r

/-- R80: every queued record of the take is rewritten in place. -/
def rewriteQueued (s : State) (n : SlotNo) (t : TakeNo) : State :=
  { s with circuits := mapAll s.circuits fun x => { x with queue := x.queue.map (rewrite n t) } }

/-- R80: the circuits on which a queued record of the take stands. -/
def queuedOn (s : State) (n : SlotNo) (t : TakeNo) : List CircuitNo :=
  (List.finRange 16).filter fun c => s.circuits[c].queue.any (ofTake n t)

/-- R78 steps 1 to 5. -/
def replaceText (s : State) (n : SlotNo) (t : TakeNo) : State :=
  let a := dropSuperseded s n t
  let readers := readerCount (reads n t .current) a
  rewriteQueued (modSlot (moveReaders a n t) n (replaceVersion readers t)) n t

/-- R78, R81: the substitute is stored, and the take released again or gated. -/
def storeSubstitute (s : State) (n : SlotNo) (t : TakeNo) : State :=
  let a := replaceText s n t
  match takeAt a n t with
  | none => a
  | some k =>
    if k.releasedFlag then
      makeFor (modTake a n t fun x => { x with state := .released }) n t .sub [] (queuedOn a n t)
    else gate a n t

/-! ### Ending a take (R71) -/

/-- R71 step 1: a take that ended cut has its cut flag set and TAKE_CUT latched, unless it was cut already. -/
def endCut (s : State) (n : SlotNo) (t : TakeNo) : State :=
  match takeAt s n t with
  | none => s
  | some k =>
    let v := fillingVersion k
    if v.cut then s else raiseTakeCut (modTake s n t fun x => withFilling x { v with cut := true }) n t

/-- R71: the take ends, closed or cut. -/
def takeEnds (s : State) (n : SlotNo) (t : TakeNo) (cut : Bool) : State :=
  match takeAt s n t with
  | none => s
  | some k =>
    let a := if cut then endCut s n t else s
    let b := slotToFront (modTake a n t fun x => { x with fillingLine := none }) n
    match k.replacement with
    | none => gate b n t
    | some _ => storeSubstitute b n t

end Sys2Proof.Machine
end

