-- ==== Sys2Proof/Machine/Management.lean ====
section
/-!
DEFINITION. Machine/Management.lean: the management buffer (R159–R165), replies (R170, R171) and the frame in which every
request is executed (R166–R168).
-/
namespace Sys2Proof.Machine

open Sys2Proof

/-! ### Replies (R160, R163, R164, R170) -/

/-- "//R", the tag if one was recorded, and the line. -/
def replyHead (tag : Option Text) (l : LineNo) : Text :=
  txt "//R" ++ (match tag with
    | some t => houseSpace :: t
    | none => []) ++ houseSpace :: lineTok l

/-- A short reply: its one line and the closing line. -/
def shortReply (tag : Option Text) (l : LineNo) (word : Text) : Text :=
  lineOf (replyHead tag l ++ houseSpace :: word) ++ closingLine

/-- R171: a reply line is added while it leaves room for the omission line and the closing line. -/
def addLine (t : Text) (r : Reply) : Reply :=
  if r.omitted = 0 ∧ r.text.length + t.length + Config.replyReserve ≤ Config.reportLimit then
    { r with text := r.text ++ t }
  else { r with omitted := r.omitted + 1 }

/-- R171: the reply as placed, with its omission line if lines were left out. -/
def closedReply (r : Reply) : Text :=
  r.text ++ (if r.omitted = 0 then [] else lineOf (txt "OMITTED " ++ decimal r.omitted)) ++ closingLine

/-! ### The buffer -/

/-- The message state with no message in it (R163, R171); the report state stays. R163 does not say that a drop makes the
header level and the tag absent; nothing reads them before the next grant does (R159; notes/assumptions/28.md). -/
def Mgmt.released (m : Mgmt) : Mgmt :=
  { m with
    buffer := .free, holder := none, level := none, tag := none, lines := [], collecting := [], tooLong := false
    effective := none, reply := none, restartDue := false }

def releaseBuffer (s : State) : State := modMgmt s Mgmt.released

/-- R159, R160: a framer asks for the buffer. Busy is answered with a count and a short reply. -/
def askBuffer (s : State) (l : LineNo) : State × Bool :=
  if s.mgmt.buffer = .free then
    (modMgmt s fun m => { m.released with buffer := .opened, holder := some l }, true)
  else
    (placeReply (modLineCounters s l fun c => { c with refused := count c.refused }) (shortReply none l (txt "BUSY")), false)

/-- R161: the management header is handed over. -/
def headerRead (s : State) (lvl : Level) (tag : Option Text) : State :=
  modMgmt s fun m => { m with buffer := .collecting, level := some lvl, tag := tag }

/-- R162: a character of a request line. -/
def collectChar (h : House) (m : Mgmt) : Mgmt :=
  if m.tooLong then m
  else if m.collecting.length < Config.requestLength then { m with collecting := m.collecting ++ [h] }
  else { m with tooLong := true }

/-- R162: the end of a request line. -/
def endRequestLine (m : Mgmt) : Mgmt :=
  let n := { m with collecting := [] }
  if m.tooLong || m.collecting.all (fun h => h = houseSpace) then n
  else if m.lines.length < Config.requestLineLimit then { n with lines := m.lines ++ [m.collecting] }
  else { n with tooLong := true }

/-- R163: the message is dropped. -/
def dropMessage (s : State) : State :=
  match s.mgmt.holder with
  | none => releaseBuffer s
  | some l => releaseBuffer (placeReply s (shortReply s.mgmt.tag l (txt "CUT")))

/-- The smaller of two levels (R165). -/
def smallerLevel (a b : Level) : Level := if a ≤ b then a else b

/-- R164, R165: the message has closed. -/
def messageClosed (s : State) : State :=
  let a := modMgmt s fun m => { m with buffer := .executing }
  match a.mgmt.holder with
  | none => releaseBuffer a
  | some l =>
    let tag := a.mgmt.tag
    let clr := a.lines[l].desc.clearance
    if a.mgmt.tooLong then releaseBuffer (placeReply a (shortReply tag l (txt "TOO-LONG")))
    else if clr = 0 then
      releaseBuffer (placeReply (raise a .standingRefused (.line l))
        (lineOf (replyHead tag l) ++ lineOf (txt "REFUSED STANDING") ++ closingLine))
    else modMgmt a fun m =>
      { m with
        effective := some (smallerLevel clr (m.level.getD 0))
        reply := some { text := lineOf (replyHead tag l), omitted := 0 } }

/-! ### Executing a request (R166, R167, R170) -/

/-- The request with this verb and these operands is the next one of the message being executed. -/
def inTurn (s : State) (verb : Text) (ops : List Text) : Bool :=
  !s.resetLow && s.mgmt.buffer = .executing &&
    match s.mgmt.lines with
    | t :: _ => tokens t = verb :: ops
    | [] => false

/-- The first request line has been taken for execution. -/
def popLine (s : State) : State := modMgmt s fun m => { m with lines := m.lines.tail }

/-- R170: the reply line of an executed request joins the reply under composition. -/
def answerWith (verb : Text) (p : State × Answer) : State :=
  modMgmt p.1 fun m => { m with reply := m.reply.map (addLine (replyLine verb p.2)) }

/-- The answer REFUSED with a reason: nothing changes, and there are no results. -/
def refuse (s : State) (r : Reason) : State × Answer := (s, { status := .refused r, results := [] })

/-- The answer DONE with results. -/
def done (s : State) (results : List Text) : State × Answer := (s, { status := .done, results := results })

/-- The answer KEPT with results: nothing changes. -/
def kept (s : State) (results : List Text) : State × Answer := (s, { status := .kept, results := results })

/-- R167 step 2: STANDING_REFUSED is latched with the holding line. -/
def raiseStanding (s : State) : State :=
  match s.mgmt.holder with
  | some l => raise s .standingRefused (.line l)
  | none => s

/-- R167 steps 2 and 3: standing at the required level, then the owning block's `body`. -/
def judge (lvl : Nat) (body : State → State × Answer) (s : State) : State × Answer :=
  if (s.mgmt.effective.getD 0).val < lvl then refuse (atOnce (raiseStanding s)) .standing else body s

/-- R166, R167, R170: a request command. It executes the next request line of the message being executed when that line
is this request; at any other moment there is no such request, and nothing happens (notes/assumptions/2.md). -/
def runRequest (verb : String) (lvl : State → Nat) (body : State → State × Answer) (ops : List Text) (s : State) :
    Host.Outcome State Fault Refusal :=
  if inTurn s (txt verb) ops then .next (answerWith (txt verb) (judge (lvl s) body (popLine s))) else .next s

/-- An event command: while the reset input is held low no event is taken (R195). Character-sent events that the event
makes due at once are taken with it (R49). -/
def runEvent (f : State → State) (s : State) : Host.Outcome State Fault Refusal :=
  if s.resetLow then .next s else .next (atOnce (f s))

/-- An event command that starts no sender, so that no character-sent event falls due with it. -/
def runBareEvent (f : State → State) (s : State) : Host.Outcome State Fault Refusal :=
  if s.resetLow then .next s else .next (f s)

end Sys2Proof.Machine
end

