-- ==== Sys2Proof/Machine/BankRequests.lean ====
section
/-!
DEFINITION. Machine/BankRequests.lean: the bank loading requests BANKKIND, BANKIN, BANKOUT, BANKSUB and BANKSHIFT
(R50–R55). Each is judged whole before anything changes.
-/
namespace Sys2Proof.Machine

open Sys2Proof

/-- The highest line code of a bank's kind (R52, R53). -/
def codeLimit : BankKind → Nat
  | .five => 31
  | .seven => 127

/-- R50: the bank operand, refused FORM or RANGE; `f` judges the other operands against the bank. -/
def withBank (t : Text) (s : State) (f : BankNo → State × Answer) : State × Answer :=
  match bankForm t with
  | none => refuse s .form
  | some n => match below? 4 n with
    | none => refuse s .range
    | some b => f b

/-- Writes consecutive entries into an array from place `i`; entries past its end are not written. -/
def putFrom {α : Type} {n : Nat} (v : Vector α n) (i : Nat) : List α → Vector α n
  | [] => v
  | x :: xs => putFrom (if h : i < n then put v ⟨i, h⟩ x else v) (i + 1) xs

/-! ### BANKKIND (R51) -/

def bodyBankkind (ops : List Text) (s : State) : State × Answer :=
  match ops with
  | [] => refuse s .form
  | bk :: rest => withBank bk s fun b =>
    match rest with
    | [kd] => match kindForm kd with
      | some k => done (modBank s b fun _ => Bank.emptied k) [bankTok b, kindTok k]
      | none => refuse s .form
    | _ => refuse s .form

def execBankkind (ops : List Text) (s : State) : Host.Outcome State Fault Refusal :=
  runRequest "BANKKIND" (fun _ => 3) (bodyBankkind ops) ops s

/-! ### BANKIN (R52) -/

/-- An inbound entry with its house value in range. -/
def entryInRange : TypedEntry → Option InEntry
  | .value n => (below? 128 n).map .char
  | .entry e => some e

/-- The named half of a FIVE bank, or the map of a SEVEN bank, with entries written from `i` on. -/
def writeInbound (h : Option Shift) (i : Nat) (es : List InEntry) (b : Bank) : Bank :=
  match h with
  | some .letters => { b with inLetters := putFrom b.inLetters i es, loaded := true }
  | some .figures => { b with inFigures := putFrom b.inFigures i es, loaded := true }
  | none => { b with inSeven := putFrom b.inSeven i es, loaded := true }

/-- R52 after the half: the first line code and the entries. -/
def bankinEntries (s : State) (b : BankNo) (h : Option Shift) (first : Text) (es : List Text) : State × Answer :=
  let k := s.banks[b].kind
  if es = [] ∨ 32 < es.length then refuse s .form
  else match number? first, forms (inEntryForm k) es with
    | some i, some typed => match forms entryInRange typed with
      | none => refuse s .range
      | some ins =>
        if codeLimit k < i + ins.length - 1 then refuse s .range
        else done (modBank s b (writeInbound h i ins))
          ([bankTok b] ++ (h.map halfTok).toList ++ [decimal i, decimal ins.length])
    | _, _ => refuse s .form

def bodyBankin (ops : List Text) (s : State) : State × Answer :=
  match ops with
  | [] => refuse s .form
  | bk :: rest => withBank bk s fun b =>
    match s.banks[b].kind, rest with
    | .five, hf :: first :: es => match halfForm hf with
      | some h => bankinEntries s b (some h) first es
      | none => refuse s .form
    | .seven, first :: es => bankinEntries s b none first es
    | _, _ => refuse s .form

def execBankin (ops : List Text) (s : State) : Host.Outcome State Fault Refusal :=
  runRequest "BANKIN" (fun _ => 3) (bodyBankin ops) ops s

/-! ### BANKOUT (R53) -/

/-- An outbound code with its line code within the kind's limit. -/
def codeInRange (k : BankKind) (c : Nat × Requirement) : Option OutCode :=
  if c.1 ≤ codeLimit k then (below? 128 c.1).map fun n => { code := n, req := c.2 } else none

def writeOutbound (i : Nat) (es : List (List OutCode)) (b : Bank) : Bank :=
  { b with out := putFrom b.out i es, loaded := true }

def bodyBankout (ops : List Text) (s : State) : State × Answer :=
  match ops with
  | [] => refuse s .form
  | bk :: rest => withBank bk s fun b =>
    let k := s.banks[b].kind
    match rest with
    | [] => refuse s .form
    | first :: es =>
      if es = [] ∨ 32 < es.length then refuse s .form
      else match number? first, forms (outEntryForm k) es with
        | some i, some typed => match forms (forms (codeInRange k)) typed with
          | none => refuse s .range
          | some outs =>
            if 127 < i + outs.length - 1 then refuse s .range
            else done (modBank s b (writeOutbound i outs)) [bankTok b, decimal i, decimal outs.length]
        | _, _ => refuse s .form

def execBankout (ops : List Text) (s : State) : Host.Outcome State Fault Refusal :=
  runRequest "BANKOUT" (fun _ => 3) (bodyBankout ops) ops s

/-! ### BANKSUB (R54) -/

def bodyBanksub (ops : List Text) (s : State) : State × Answer :=
  match ops with
  | [] => refuse s .form
  | bk :: rest => withBank bk s fun b =>
    let k := s.banks[b].kind
    match rest with
    | [cd] => match outCodeForm k cd with
      | none => refuse s .form
      | some typed => match codeInRange k typed with
        | none => refuse s .range
        | some c => done (modBank s b fun x => { x with sub := some c, loaded := true }) [bankTok b, outCodeTok k c]
    | _ => refuse s .form

def execBanksub (ops : List Text) (s : State) : Host.Outcome State Fault Refusal :=
  runRequest "BANKSUB" (fun _ => 3) (bodyBanksub ops) ops s

/-! ### BANKSHIFT (R55) -/

/-- A bare line code 0–31. -/
def shiftInRange (n : Nat) : Option LineCode := if n ≤ 31 then below? 128 n else none

def bodyBankshift (ops : List Text) (s : State) : State × Answer :=
  match ops with
  | [] => refuse s .form
  | bk :: rest => withBank bk s fun b =>
    match s.banks[b].kind, rest with
    | .five, [lt, fg] => match number? lt, number? fg with
      | some m, some n => match shiftInRange m, shiftInRange n with
        | some x, some y =>
          done (modBank s b fun k => { k with lettersShift := some x, figuresShift := some y, loaded := true })
            [bankTok b, decimal x, decimal y]
        | _, _ => refuse s .range
      | _, _ => refuse s .form
    | _, _ => refuse s .form

def execBankshift (ops : List Text) (s : State) : Host.Outcome State Fault Refusal :=
  runRequest "BANKSHIFT" (fun _ => 3) (bodyBankshift ops) ops s

end Sys2Proof.Machine
end

