-- ==== Sys2Proof/Machine/EventRequests.lean ====
section
/-!
DEFINITION. Machine/EventRequests.lean: EVENTS, CLEAREVENT, MASK, ALERTS, COUNTS and CLEARCOUNTS
(spec/09_events_and_counters.md).
-/
namespace Sys2Proof.Machine

open Sys2Proof

/-- An event kind written as its name. -/
def eventForm (t : Text) : Option EventKind := allKinds.find? fun k => eventTok k = t

/-! ### EVENTS (R182) -/

/-- The highest-priority kind that is latched and unmasked. -/
def topEvent (s : State) : Option EventKind := allKinds.find? fun k => (entryOf s k).latched && !(entryOf s k).masked

def bodyEvents (ops : List Text) (s : State) : State × Answer :=
  if ops ≠ [] then refuse s .form
  else if s.latch.alertMode then refuse s .mode
  else match topEvent s with
    | none => done s [txt "NONE"]
    | some k => done (modEntry s k clearEntry) (entryToks k (entryOf s k))

def execEvents (ops : List Text) (s : State) : Host.Outcome State Fault Refusal :=
  runRequest "EVENTS" (fun _ => 1) (bodyEvents ops) ops s

/-! ### CLEAREVENT (R185) -/

def bodyClearevent (ops : List Text) (s : State) : State × Answer :=
  match ops with
  | [t] => match eventForm t with
    | none => refuse s .form
    | some k => done (modEntry s k clearEntry) [decimal (entryOf s k).count]
  | _ => refuse s .form

def execClearevent (ops : List Text) (s : State) : Host.Outcome State Fault Refusal :=
  runRequest "CLEAREVENT" (fun _ => 2) (bodyClearevent ops) ops s

/-! ### MASK (R186) -/

/-- R186: the mask of a kind is set or taken off. A mask that stays as it was changes nothing. -/
def setMask (s : State) (k : EventKind) (on : Bool) : State :=
  if (entryOf s k).masked = on then s
  else if on then modEntry s k fun e => { e with masked := true, owed := false }
  else
    let t := modEntry s k fun e => { e with masked := false }
    if s.latch.alertMode && (entryOf s k).latched then alertDue t k else t

def bodyMask (ops : List Text) (s : State) : State × Answer :=
  match ops with
  | [kt, ot] => match eventForm kt, onOffForm ot with
    | some k, some on => done (atOnce (setMask s k on)) [onOffTok (entryOf s k).masked, onOffTok on]
    | _, _ => refuse s .form
  | _ => refuse s .form

def execMask (ops : List Text) (s : State) : Host.Outcome State Fault Refusal :=
  runRequest "MASK" (fun _ => 2) (bodyMask ops) ops s

/-! ### ALERTS (R187) -/

/-- R187: a kind's alert falls due if it is latched and unmasked. -/
def alertIfLatched (s : State) (k : EventKind) : State :=
  if (entryOf s k).latched && !(entryOf s k).masked then alertDue s k else s

def setAlerts (s : State) (on : Bool) : State :=
  if s.latch.alertMode = on then s
  else if on then allKinds.foldl alertIfLatched { s with latch := { s.latch with alertMode := true } }
  else { s with latch := { entries := mapAll s.latch.entries fun e => { e with owed := false }, alertMode := false } }

def bodyAlerts (ops : List Text) (s : State) : State × Answer :=
  match ops with
  | [ot] => match onOffForm ot with
    | some on => done (atOnce (setAlerts s on)) [onOffTok s.latch.alertMode, onOffTok on]
    | none => refuse s .form
  | _ => refuse s .form

def execAlerts (ops : List Text) (s : State) : Host.Outcome State Fault Refusal :=
  runRequest "ALERTS" (fun _ => 2) (bodyAlerts ops) ops s

/-! ### COUNTS and CLEARCOUNTS (R189, R190) -/

def lineCounts (c : LineCounters) : List Text :=
  [c.messagesTaken, c.headerFaults, c.framing, c.duplicates, c.refused, c.stray].map decimal

def circuitCounts (x : Sender) : List Text := [x.completed, x.missed, x.breaksIn].map decimal

def bodyCounts (ops : List Text) (s : State) : State × Answer :=
  match ops with
  | [t] => match lineForm t, circuitForm t with
    | some n, _ => match below? 24 n with
      | none => refuse s .range
      | some l => done s (lineTok l :: lineCounts s.lines[l].counters)
    | none, some n => match below? 16 n with
      | none => refuse s .range
      | some c => done s (circuitTok c :: circuitCounts s.circuits[c].sender)
    | none, none => refuse s .form
  | _ => refuse s .form

def execCounts (ops : List Text) (s : State) : Host.Outcome State Fault Refusal :=
  runRequest "COUNTS" (fun _ => 1) (bodyCounts ops) ops s

/-- R190: every counter of every line and circuit becomes 0. -/
def zeroCounters (s : State) : State :=
  { s with
    lines := mapAll s.lines fun x => { x with counters := LineCounters.zero }
    circuits := mapAll s.circuits fun x => { x with sender := { x.sender with completed := 0, missed := 0, breaksIn := 0 } } }

def bodyClearcounts (ops : List Text) (s : State) : State × Answer :=
  if ops ≠ [] then refuse s .form else done (zeroCounters s) []

def execClearcounts (ops : List Text) (s : State) : Host.Outcome State Fault Refusal :=
  runRequest "CLEARCOUNTS" (fun _ => 2) (bodyClearcounts ops) ops s

end Sys2Proof.Machine
end

