-- ==== Sys2Proof/Machine/Framer.lean ====
section
/-!
DEFINITION. Machine/Framer.lean: the envelope framer (spec/02_the_copy_envelope.md): reading headers (R21, R22, R25), marks
(R18, R26, R27), and the ends of a message (R29–R35).
-/
namespace Sys2Proof.Machine

open Sys2Proof

/-! ### Reading a copy header (R21, R22) -/

/-- The text after the spaces it begins with. -/
def skipSpaces (t : Text) : Text := t.dropWhile fun h => h = houseSpace

/-- The next token and what follows it. -/
def cutToken (t : Text) : Text × Text :=
  let u := skipSpaces t
  (u.takeWhile (fun h => h ≠ houseSpace), u.dropWhile fun h => h ≠ houseSpace)

/-- The text without the spaces it ends with. -/
def trimEnd (t : Text) : Text := (skipSpaces t.reverse).reverse

/-- R22: the text that follows a separator, as a slug: at most 24 characters, absent when empty. -/
def slugOf (t : Text) : Option Text :=
  let u := (trimEnd (skipSpaces t)).take Config.slugLimit
  if u = [] then none else some u

/-- R22: a token of take shape gives the take's number and its L and S flags. -/
def takeShape : Text → Option (Nat × Bool × Bool)
  | [] => none
  | h :: t =>
    let ds := t.takeWhile isDigit
    let rest := t.dropWhile isDigit
    if h = ch 'T' ∧ ds ≠ [] ∧ ds.length ≤ 2 then
      if rest = [] then some (digitsValue ds, false, false)
      else if rest = txt "L" then some (digitsValue ds, true, false)
      else if rest = txt "S" then some (digitsValue ds, false, true)
      else if rest = txt "LS" then some (digitsValue ds, true, true)
      else none
    else none

/-- R21: the agency token is two capital letters, and the line's agency unless that is "**". -/
def lineAgency (own : Option Agency) (t : Text) : Option Agency :=
  match agencyCode t with
  | none => none
  | some a => match own with
    | none => some a
    | some b => if a = b then some a else none

/-- R22: take number, flags and slug, from the text after the category; `none` is a header fault. -/
def takeAndSlug (rest : Text) : Option (TakeNo × Bool × Bool × Option Text) :=
  let c := cutToken rest
  match takeShape c.1 with
  | none => some (0, true, false, slugOf rest)
  | some (n, l, s) => (below? 12 n).map fun t => (t, l, s, slugOf c.2)

/-- R21, R22: a copy header; `none` is a header fault. -/
def readCopyHeader (own : Option Agency) (t : Text) : Option CopyHeader :=
  let a := cutToken t
  let b := cutToken a.2
  let c := cutToken b.2
  let d := cutToken c.2
  match lineAgency own a.1, storyNumber b.1, classForm c.1, categoryForm d.1, takeAndSlug d.2 with
  | some ag, some n, some k, some g, some (tk, l, s, slug) =>
    some { key := ⟨ag, n⟩, cls := k, category := g, take := tk, last := l, sub := s, slug := slug }
  | _, _, _, _, _ => none

/-! ### Reading a management header (R25) -/

/-- One digit 0–3. -/
def levelForm (t : Text) : Option Level := (oneDigit t).bind (below? 4)

/-- One to four digits, kept as typed. -/
def tagForm (t : Text) : Option Text := if t.length ≤ 4 ∧ (number? t).isSome then some t else none

/-- R25: the level and the tag; `none` is a header fault. -/
def readManagementHeader (t : Text) : Option (Level × Option Text) :=
  match tokens t with
  | [a] => (levelForm a).map fun v => (v, none)
  | [a, b] => match levelForm a, tagForm b with
    | some v, some g => some (v, some g)
    | _, _ => none
  | _ => none

/-! ### Passing characters on (R27, R28, R30) -/

/-- A character passed on as text, by the framer's state. -/
def passOn (s : State) (l : LineNo) (h : House) : State :=
  let f := s.lines[l].framer
  match f.state with
  | .copyBody => match f.takeRef with
    | some (n, t) => writeChar s n t h
    | none => s
  | .manageBody =>
    if h = houseNL then modMgmt s endRequestLine
    else if isFunction h then s
    else modMgmt s (collectChar h)
  | _ => s

/-- `k` slashes passed on as text. -/
def passSlashes (s : State) (l : LineNo) : Nat → State
  | 0 => s
  | k + 1 => passSlashes (passOn s l houseSlash) l k

/-! ### The framer's states -/

def toHunt (s : State) (l : LineNo) : State := modFramer s l fun _ => Framer.reset

/-- DISCARD, with line start as given and nothing held. -/
def toDiscard (s : State) (l : LineNo) (lineStart : Bool) : State :=
  modFramer s l fun f => { f with state := .discard, held := 0, lineStart := lineStart, takeRef := none }

/-- Counts `k` stray characters (R18). -/
def countStray (s : State) (l : LineNo) (k : Nat) : State :=
  modLineCounters s l fun c => { c with stray := min (c.stray + k) Config.counterTop }

/-- R19: an opening mark is taken. In HEADER the line start has no meaning, and it is cleared (notes/assumptions/23.md). -/
def takeOpening (s : State) (l : LineNo) (k : MessageKind) : State :=
  let a := modLineCounters s l fun c => { c with messagesTaken := count c.messagesTaken }
  let b := modFramer a l fun f => { f with header := [], takeRef := none, held := 0, lineStart := false }
  match k with
  | .copy => modFramer b l fun f => { f with state := .header, kind := .copy }
  | .management =>
    let r := askBuffer b l
    if r.2 then modFramer r.1 l fun f => { f with state := .header, kind := .management }
    else toDiscard r.1 l true

/-- R31 and R33: what ends with the message, by the framer's state; the framer's own next state is set by the caller. A
filling take ends cut, and a management message is dropped. Held slashes are passed on first (R27). -/
def endMessageCut (s : State) (l : LineNo) : State :=
  let f := s.lines[l].framer
  match f.state with
  | .copyBody =>
    let a := passSlashes s l f.held.val
    match f.takeRef with
    | some (n, t) => takeEnds a n t true
    | none => a
  | .manageBody => dropMessage (passSlashes s l f.held.val)
  | .header => match f.kind with
    | .copy => s
    | .management => dropMessage s
  | _ => s

/-- R34: on LINE or the table check the message ends as at a break, and the framer enters HUNT. -/
def framerAbandons (s : State) (l : LineNo) : State := toHunt (endMessageCut s l) l

/-- R33: the line has entered break. -/
def framerBreaks (s : State) (l : LineNo) : State :=
  modFramer (framerAbandons s l) l fun f => { f with state := .broken }

/-! ### HUNT (R18) -/

def huntChar (s : State) (l : LineNo) (h : House) : State :=
  let f := s.lines[l].framer
  if h = houseSlash then
    if f.held = 2 then countStray s l 1 else modFramer s l fun f => { f with held := f.held + 1 }
  else if f.held = 2 ∧ h = ch 'C' then takeOpening s l .copy
  else if f.held = 2 ∧ h = ch 'M' then takeOpening s l .management
  else countStray (modFramer s l fun f => { f with held := 0 }) l (f.held.val + 1)

/-! ### HEADER (R20, R23–R25) -/

/-- R23: a fault in a copy header. -/
def copyHeaderFault (s : State) (l : LineNo) (lineStart : Bool) : State :=
  toDiscard (modLineCounters (raise s .headerFault (.line l)) l fun c => { c with headerFaults := count c.headerFaults })
    l lineStart

/-- R25: a fault in a management header. -/
def managementHeaderFault (s : State) (l : LineNo) (lineStart : Bool) : State :=
  toDiscard (dropMessage (raise s .headerFault (.line l))) l lineStart

def headerFault (s : State) (l : LineNo) (lineStart : Bool) : State :=
  match s.lines[l].framer.kind with
  | .copy => copyHeaderFault s l lineStart
  | .management => managementHeaderFault s l lineStart

/-- R24: the header is handed to the store, and the framer acts on the answer. -/
def handCopyHeader (s : State) (l : LineNo) (h : CopyHeader) : State :=
  let r := handOver s l h
  match r.2 with
  | .opened n t =>
    modFramer r.1 l fun f => { f with state := .copyBody, held := 0, lineStart := true, takeRef := some (n, t) }
  | _ => toDiscard r.1 l true

/-- The header's NL (R20). -/
def headerEnds (s : State) (l : LineNo) : State :=
  let f := s.lines[l].framer
  match f.kind with
  | .copy => match readCopyHeader s.lines[l].desc.agency f.header with
    | none => copyHeaderFault s l true
    | some h => handCopyHeader s l h
  | .management => match readManagementHeader f.header with
    | none => managementHeaderFault s l true
    | some (v, g) =>
      modFramer (headerRead s v g) l fun f => { f with state := .manageBody, held := 0, lineStart := true }

def headerChar (s : State) (l : LineNo) (h : House) : State :=
  if h = houseNL then headerEnds s l
  else if isFunction h then s
  else if s.lines[l].framer.header.length < Config.headerLimit then
    modFramer s l fun f => { f with header := f.header ++ [h] }
  else headerFault s l false

/-! ### Bodies (R26, R27, R29–R32) -/

/-- R29, R30, R32: a closing mark at a line start. -/
def takeClosing (s : State) (l : LineNo) : State :=
  let f := s.lines[l].framer
  let a := toHunt s l
  match f.state with
  | .copyBody => match f.takeRef with
    | some (n, t) => takeEnds a n t false
    | none => a
  | .manageBody => messageClosed a
  | _ => a

/-- R31, R32: an opening mark at a line start. Between the drop of a management message and the framer's own request for the
buffer stands what `between` makes of the state (R31, R159). -/
def openingInBody (between : State → State) (s : State) (l : LineNo) (k : MessageKind) : State :=
  let a := endMessageCut (modFramer s l fun f => { f with held := 0 }) l
  takeOpening (if s.lines[l].framer.state = .manageBody ∧ k = .management then between a else a) l k

/-- R26, R27: `slashes` and then the deciding character are passed on as text. -/
def decide27 (s : State) (l : LineNo) (slashes : Nat) (h : House) : State :=
  modFramer (passOn (passSlashes s l slashes) l h) l fun f => { f with held := 0, lineStart := h = houseNL }

/-- R26: a character in COPY-BODY, MANAGE-BODY or DISCARD. -/
def bodyChar (between : State → State) (s : State) (l : LineNo) (h : House) : State :=
  let f := s.lines[l].framer
  if f.held = 0 then
    if h = houseSlash ∧ f.lineStart then modFramer s l fun f => { f with held := 1 }
    else modFramer (passOn s l h) l fun f =>
      { f with lineStart := if h = houseNL then true else if isFunction h then f.lineStart else false }
  else if f.held = 1 then
    if h = houseSlash then modFramer s l fun f => { f with held := 2 } else decide27 s l 1 h
  else if h = ch 'C' then openingInBody between s l .copy
  else if h = ch 'M' then openingInBody between s l .management
  else if h = ch 'E' then takeClosing s l
  else decide27 s l 2 h

/-- The framer handles a house character in its current state (R17). -/
def framerChar (between : State → State) (s : State) (l : LineNo) (h : House) : State :=
  match s.lines[l].framer.state with
  | .hunt => huntChar s l h
  | .header => headerChar s l h
  | .copyBody => bodyChar between s l h
  | .manageBody => bodyChar between s l h
  | .discard => bodyChar between s l h
  | .broken => s

/-! ### A character from the receiver (R7, R8) -/

/-- A character can be completed on the line: it is in service, and its receiver stands in the character, or in IDLE on
a marking line, where the command stands for the whole character (notes/assumptions/5.md). -/
def canArrive (x : Line) : Bool :=
  lineInService x &&
    match x.receiver.state with
    | .start => true
    | .data => true
    | .stop => true
    | .idle => x.input = .marking
    | _ => false

/-- R7: the line code of the data samples. -/
def lineCode (w : Width) (samples : BitVec 7) : LineCode :=
  match w with
  | .five => Fin.ofNat 128 (samples.toNat % 32)
  | .seven => Fin.ofNat 128 samples.toNat

/-- R12: the silence timer is reloaded while the line is in service with a silence limit above 0. -/
def reloadSilence (s : State) (l : LineNo) : State :=
  modLine s l fun x => { x with silence := (silenceLoad x).or x.silence }

/-- R8, R39–R43: the framer is handed a line code, which it converts through the line's bank. -/
def receiveCode (between : State → State) (s : State) (l : LineNo) (code : LineCode) : State :=
  let x := s.lines[l]
  let r := convertIn s.banks[x.desc.bank] x.desc.width x.shift code
  let a := modLine s l fun y => { y with shift := r.2 }
  match r.1 with
  | some h => framerChar between a l h
  | none => a

/-- R8: a character arrives with its stop sample marking. -/
def goodCharacter (between : State → State) (s : State) (l : LineNo) (code : LineCode) : State :=
  let a := reloadSilence (receiveCode between s l code) l
  modLine a l fun x => { x with input := .marking, receiver := Receiver.reset }

/-! ### Another line's request between a drop and a request (R31, R159) -/

/-- The character on another line that completes a management opening, if the free buffer is granted to that line. -/
def openedByAnother (l : LineNo) (s : State) (i : Instr) : State :=
  match i with
  | .characterArrives m samples true =>
    let t := goodCharacter id s m (lineCode s.lines[m].desc.width samples)
    if m ≠ l ∧ canArrive s.lines[m] ∧ s.mgmt.buffer = .free ∧ t.mgmt.holder = some m then t else s
  | _ => s

/-- What comes on other lines after the framer of `l` has dropped its message and before it asks for the buffer again. -/
def betweenDropAndRequest (l : LineNo) (s : State) : State := inGap (openedByAnother l) s

end Sys2Proof.Machine
end

