-- ==== Sys2Proof/Machine/Service.lean ====
section
/-!
DEFINITION. Machine/Service.lean: what several blocks do together when service changes: a line set afresh or put out of
service (R5, R14), a circuit going out of service (R154), notices of withholding (R194), the table check (R198), the report
circuit's move (R175) and the restart (R202).
-/
namespace Sys2Proof.Machine

open Sys2Proof

/-! ### Lines -/

/-- R5 steps 3 to 5, R14 steps 1 to 3: reception is abandoned and the shift state becomes LETTERS. -/
def abandonReception (s : State) (l : LineNo) : State :=
  modLine s l fun x => { x with receiver := Receiver.reset, shift := .letters }

/-- R5: an accepted LINE takes effect. -/
def setLine (s : State) (l : LineNo) (d : LineDesc) : State :=
  let a := abandonReception (modLine s l fun x => { x with desc := d, outOfService := false }) l
  modLine (framerAbandons a l) l fun x => { x with silence := silenceLoad x }

/-- R14: the table check puts a line out of service. -/
def lineOut (s : State) (l : LineNo) : State :=
  let a := abandonReception (modLine s l fun x => { x with outOfService := true }) l
  framerAbandons (modLine a l fun x => { x with silence := none }) l

/-! ### Circuits (R154) -/

/-- R154: a record disposed of: to the pool, counted missed, and DELIVERY_MISSED latched. -/
def disposeRecord (c : CircuitNo) (s : State) (r : Rec) : State :=
  raiseMissed (countMissed (returnRecord s r) c) c (keyOfRecord s r)

/-- R154 step 3 for what the sender carried. -/
def disposeCarried (s : State) (c : CircuitNo) (x : Carried) : State :=
  match x with
  | .record r => if r.ref = none then returnRecord s r else disposeRecord c s r
  | _ => s

/-- R154: a circuit goes out of service. -/
def circuitOut (s : State) (c : CircuitNo) : State :=
  let x := s.circuits[c]
  let a := modCircuit s c fun y => { y with queue := [], sender := { y.sender.halted with chain := [] } }
  (x.sender.chain ++ x.queue).foldl (disposeRecord c) (disposeCarried a c x.sender.carried)

/-! ### Notices of withholding (R151, R194) -/

/-- R194: the sender of a circuit whose degree was `before` is told if it has changed. -/
def tellDegree (before : Mode) (s : State) (c : CircuitNo) : State :=
  let a := degreeRank (degree before c)
  let b := degreeRank (degreeOf s c)
  if a < b then tellWithheldMore s c else if b < a then tellWithheldLess s c else s

/-- R194: the mode state changes, and the senders whose degree has changed are told, in circuit order. -/
def changeMode (s : State) (f : Mode → Mode) : State :=
  (List.finRange 16).foldl (tellDegree s.mode) { s with mode := f s.mode }

/-- R145: a sender carrying a report that its circuit may no longer print is told to end it. -/
def cutReport (x : Sender) : Sender :=
  if x.carried = .report ∧ x.phase = .report then { x with cutTold := some .storeCut } else x

/-- R175: the report circuit moves to `c`. -/
def moveReports (s : State) (c : CircuitNo) : State :=
  let old := s.mgmt.reportCircuit
  if old = c then s
  else
    let a := modSender (modMgmt s fun m => { m with reportCircuit := c }) old cutReport
    offer (tellWithheldMore a old) c

/-! ### The table check (R198) -/

def bankOf (s : State) (b : BankNo) : Bank := s.banks[b]

/-- R198 step 2 for a line: its bank is loaded and of its kind. -/
def lineSound (s : State) (x : Line) : Bool := (bankOf s x.desc.bank).loaded && kindMatches x.desc.width (bankOf s x.desc.bank).kind

/-- R198 step 2 for a circuit. -/
def circuitSound (s : State) (x : Circuit) : Bool :=
  (bankOf s x.desc.bank).loaded && kindMatches x.desc.width (bankOf s x.desc.bank).kind

/-- R198 step 1: the lines and circuits judged. -/
def linesJudged (s : State) : List LineNo := (List.finRange 24).filter fun l => lineInService s.lines[l]

def circuitsJudged (s : State) : List CircuitNo := (List.finRange 16).filter fun c => circuitInService s.circuits[c]

/-- R198 step 3 for a circuit. -/
def markCircuit (s : State) (c : CircuitNo) : State := circuitOut (modCircuit s c fun x => { x with outOfService := true }) c

/-- R198 step 3: lines first, then circuits, each reaction complete before the next begins. -/
def markUnsound (s : State) : State :=
  let ls := (linesJudged s).filter fun l => !lineSound s s.lines[l]
  let cs := (circuitsJudged s).filter fun c => !circuitSound s s.circuits[c]
  cs.foldl markCircuit (ls.foldl lineOut s)

def checkFlag (ok : Bool) : CheckFlag := if ok then .passed else .failed

/-- R198 step 4: no line or circuit judged had an unloaded bank. -/
def allLoaded (s : State) : Bool :=
  (linesJudged s).all (fun l => (bankOf s s.lines[l].desc.bank).loaded) &&
    (circuitsJudged s).all fun c => (bankOf s s.circuits[c].desc.bank).loaded

/-- R198 step 5, first half: every line and circuit judged matched its bank's kind. -/
def allMatched (s : State) : Bool :=
  (linesJudged s).all (fun l => kindMatches s.lines[l].desc.width (bankOf s s.lines[l].desc.bank).kind) &&
    (circuitsJudged s).all fun c => kindMatches s.circuits[c].desc.width (bankOf s s.circuits[c].desc.bank).kind

/-- R198: the table check. -/
def tableCheck (s : State) : State :=
  let a := markUnsound s
  let lf := checkFlag (allLoaded s)
  let cf := checkFlag (allMatched s && circuitInService a.circuits[a.mgmt.reportCircuit])
  let b := { a with mode := { a.mode with loadedFlag := lf, consistentFlag := cf } }
  if lf = .failed ∨ cf = .failed then raise b .checkFailed (.flags lf cf) else b

/-! ### The restart (R202) -/

/-- R16, R37: a line at RESTART. The descriptor, the out-of-service mark and the line input stay. -/
def Line.restarted (x : Line) : Line :=
  { x with
    receiver := Receiver.reset, shift := .letters, silence := none, framer := Framer.reset, counters := LineCounters.zero }

/-- R157: a circuit at RESTART. The descriptor and the out-of-service mark stay. -/
def Circuit.restarted (x : Circuit) : Circuit := { x with queue := [], sender := Sender.reset }

/-- R191: a kind at RESTART. -/
def LatchEntry.restarted (e : LatchEntry) : LatchEntry := clearEntry e

/-- R202: the restart takes effect. The message state stays for the reply (R178). -/
def restart (s : State) : State :=
  { s with
    lines := mapAll s.lines Line.restarted
    slots := Vector.replicate 40 Slot.freed
    recency := recencyReset
    freeCount := Config.poolSize
    circuits := mapAll s.circuits Circuit.restarted
    mgmt := { s.mgmt with reports := [] }
    mode := { s.mode with quiet := true, service := .full }
    latch := { s.latch with entries := mapAll s.latch.entries LatchEntry.restarted } }

end Sys2Proof.Machine
end

