-- ==== Sys2Proof/Machine/ReceiverEvents.lean ====
section
/-!
DEFINITION. Machine/ReceiverEvents.lean: the reset input (R195, R196) and the line events of spec/01_agency_lines.md.
-/
namespace Sys2Proof.Machine

open Sys2Proof

/-! ### The reset input -/

/-- R195: every circuit output rests marking and every motor control output is off. What the blocks hold is replaced at
the release; until then no event is taken. -/
def execResetAsserted (s : State) : Host.Outcome State Fault Refusal :=
  .next { s with
    resetLow := true
    circuits := mapAll s.circuits fun x => { x with sender := { x.sender with motor := false, sending := none } } }

/-- The pin-reset values of every block. The level on a line input and the commands that wait are not the part's. -/
def pinReset (s : State) : State :=
  { State.reset with
    lines := tabulate 24 fun l => { Line.reset l with input := s.lines[l].input }
    pending := s.pending
    meanwhile := s.meanwhile }

/-- R196. The manual gives no release of an input that is not held low; the model resets the part all the same
(notes/assumptions/14.md). -/
def execResetReleased (s : State) : Host.Outcome State Fault Refusal := .next (pinReset s)

/-! ### Characters (R7–R9) -/

/-- R9, R10: a character arrives with a framing error. The SUB completes no mark. -/
def badCharacter (s : State) (l : LineNo) (code : LineCode) : State :=
  let a := modLineCounters (framerChar id s l houseSUB) l fun c => { c with framing := count c.framing }
  let b := reloadSilence (raise a .framing (.line l)) l
  modLine b l fun x =>
    { x with
      input := .spacing
      receiver :=
        { state := .hold
          breakWatch := if code = 0 then some (charTimeHalves x.desc.width x.desc.stop) else none
          markingInterval := none } }

def characterArrives (l : LineNo) (samples : BitVec 7) (stopMarking : Bool) (s : State) : State :=
  let x := s.lines[l]
  if canArrive x then
    let code := lineCode x.desc.width samples
    if stopMarking then goodCharacter (betweenDropAndRequest l) s l code else badCharacter s l code
  else s

def execCharacterArrives (l : LineNo) (samples : BitVec 7) (stopMarking : Bool) (s : State) :
    Host.Outcome State Fault Refusal :=
  runEvent (characterArrives l samples stopMarking) s

/-! ### Breaks (R10, R11) -/

/-- R10: the break watch expires with the line still spacing. -/
def breakBegins (l : LineNo) (s : State) : State :=
  let x := s.lines[l]
  if x.receiver.state = .hold ∧ x.receiver.breakWatch ≠ none then
    let a := modReceiver s l fun _ => { state := .brk, breakWatch := none, markingInterval := none }
    let b := framerBreaks (raise a .lineBreak (.line l)) l
    modLine b l fun y => { y with shift := .letters, silence := none }
  else s

def execBreakWatchExpires (l : LineNo) (s : State) : Host.Outcome State Fault Refusal := runEvent (breakBegins l) s

/-- R11: one character time of continuous marking ends the break. -/
def breakEnds (l : LineNo) (s : State) : State :=
  let x := s.lines[l]
  if x.receiver.state = .brk ∧ x.receiver.markingInterval ≠ none then
    reloadSilence (toHunt (modReceiver s l fun _ => Receiver.reset) l) l
  else s

def execMarkingIntervalExpires (l : LineNo) (s : State) : Host.Outcome State Fault Refusal :=
  runBareEvent (breakEnds l) s

/-! ### The silence watch (R12) -/

def lineSilent (l : LineNo) (s : State) : State :=
  if s.lines[l].silence = none then s
  else raise (modLine s l fun x => { x with silence := none }) .lineSilent (.line l)

def execSilenceTimerExpires (l : LineNo) (s : State) : Host.Outcome State Fault Refusal := runEvent (lineSilent l) s

/-! ### Transitions and false starts (R6, R9–R11) -/

/-- The receiver after a mark-to-space transition (R6, R11). -/
def rxToSpace (x : Line) : Receiver :=
  match x.receiver.state with
  | .idle => if lineInService x then { x.receiver with state := .start } else x.receiver
  | .brk => { x.receiver with markingInterval := none }
  | _ => x.receiver

/-- The receiver after a space-to-mark transition (R9, R10, R11). -/
def rxToMark (x : Line) : Receiver :=
  match x.receiver.state with
  | .hold => Receiver.reset
  | .brk => { x.receiver with markingInterval := some (charTimeHalves x.desc.width x.desc.stop) }
  | _ => x.receiver

/-- The line input changes; the receiver takes no notice while the reset input is held low (R195). -/
def execMarkToSpaceTransition (l : LineNo) (s : State) : Host.Outcome State Fault Refusal :=
  .next (modLine s l fun x => { x with input := .spacing, receiver := if s.resetLow then x.receiver else rxToSpace x })

def execSpaceToMarkTransition (l : LineNo) (s : State) : Host.Outcome State Fault Refusal :=
  .next (modLine s l fun x => { x with input := .marking, receiver := if s.resetLow then x.receiver else rxToMark x })

/-- R6: the start sample finds the line marking. -/
def falseStart (l : LineNo) (s : State) : State :=
  if s.lines[l].receiver.state = .start then
    modLine s l fun x => { x with input := .marking, receiver := Receiver.reset }
  else s

def execFalseStart (l : LineNo) (s : State) : Host.Outcome State Fault Refusal := runBareEvent (falseStart l) s

end Sys2Proof.Machine
end

