-- ==== Sys2Proof/Machine/RouteRequests.lean ====
section
/-!
DEFINITION. Machine/RouteRequests.lean: the route table's editing requests (R98–R104), and PRECEDENCE (R107) and QUEUE
(R125, R126).
-/
namespace Sys2Proof.Machine

open Sys2Proof

/-! ### Required levels (R98) -/

/-- The entry an operand names, if it is in its form and in range. -/
def entryNamed (t : Text) : Option EntryNo := (entryForm t).bind (below? 64)

/-- R98: the greater of 2 and the edit level of the entry named by the first operand. -/
def entryLevel (ops : List Text) (s : State) : Nat :=
  match ops with
  | [] => 2
  | e :: _ => match entryNamed e with
    | some n => max 2 s.routes[n].editLevel.val
    | none => 2

/-- R98: the edit level written in a ROUTE's seventh operand; one not written as a digit 0–3 counts as 0. -/
def writtenLevel (ops : List Text) : Nat :=
  match (ops[6]?).bind levelDigit with
  | some v => v
  | none => 0
where
  levelDigit (t : Text) : Option Nat := (oneDigit t).bind fun n => if n ≤ 3 then some n else none

/-- R98: ROUTE's required level; 2 where the entry operand is not an entry. -/
def routeLevel (ops : List Text) (s : State) : Nat :=
  match ops with
  | [] => 2
  | e :: _ => match entryNamed e with
    | some n => max (max 2 s.routes[n].editLevel.val) (writtenLevel ops)
    | none => 2

def setEntry (s : State) (n : EntryNo) (f : RouteEntry → RouteEntry) : State :=
  { s with routes := modAt s.routes n f }

/-! ### ROUTE and ROUTEOFF (R99–R101) -/

/-- ROUTE's operands in their forms; numbers are not yet judged. -/
structure RouteOperands where
  entry : Nat
  cat1 : Option Letter
  cat2 : Option Letter
  cat3 : Option Letter
  agency : Option Agency
  floor : Class
  circuits : List Nat
  stop : Bool
  level : Nat
  deriving DecidableEq, Repr

def routeForms (ops : List Text) : Option RouteOperands :=
  match ops with
  | [en, cat, ag, fl, cs, st, lv] =>
    match entryForm en, patternForm cat, agencyForm ag, classForm fl, listForm circuitForm cs, stopFlagForm st,
      oneDigit lv with
    | some e, some p, some a, some c, some l, some f, some v =>
      some
        { entry := e, cat1 := p.1, cat2 := p.2.1, cat3 := p.2.2, agency := a, floor := c, circuits := l, stop := f
          level := v }
    | _, _, _, _, _, _, _ => none
  | _ => none

/-- The circuit numbers of a list, all in range. -/
def circuitsInRange (l : List Nat) : Option (List CircuitNo) := forms (below? 16) l

/-- The entry as stored, in operand order. -/
def entryToks2 (e : RouteEntry) : List Text :=
  [[patternTok e.cat1, patternTok e.cat2, patternTok e.cat3], anyAgencyTok e.agency, [classLetter e.floor],
    circuitSetTok e.circuits, if e.stop then txt "STOP" else txt "PASS", decimal e.editLevel]

/-- R99, R100. -/
def bodyRoute (ops : List Text) (s : State) : State × Answer :=
  match routeForms ops with
  | none => refuse s .form
  | some o => match below? 64 o.entry, circuitsInRange o.circuits, below? 4 o.level with
    | some n, some cs, some v =>
      let e : RouteEntry :=
        { inUse := true, cat1 := o.cat1, cat2 := o.cat2, cat3 := o.cat3, agency := o.agency, floor := o.floor
          circuits := setOf cs, stop := o.stop, editLevel := v }
      done (setEntry s n fun _ => e) (entryToks2 e)
    | _, _, _ => refuse s .range

def execRoute (ops : List Text) (s : State) : Host.Outcome State Fault Refusal :=
  runRequest "ROUTE" (routeLevel ops) (bodyRoute ops) ops s

/-- R101. -/
def bodyRouteoff (ops : List Text) (s : State) : State × Answer :=
  match ops with
  | [en] => match entryForm en with
    | none => refuse s .form
    | some e => match below? 64 e with
      | none => refuse s .range
      | some n => done (setEntry s n fun _ => RouteEntry.unused)
        [if s.routes[n].inUse then txt "USED" else txt "UNUSED"]
  | _ => refuse s .form

def execRouteoff (ops : List Text) (s : State) : Host.Outcome State Fault Refusal :=
  runRequest "ROUTEOFF" (entryLevel ops) (bodyRouteoff ops) ops s

/-! ### One circuit's membership (R99, R102, R103) -/

/-- R99 for the requests on one circuit of an entry; `f` gives the membership after from the membership before. -/
def membership (f : Bool → Bool) (ops : List Text) (s : State) : State × Answer :=
  match ops with
  | [en, cn] => match entryForm en, circuitForm cn with
    | some e, some k => match below? 64 e, below? 16 k with
      | some n, some c =>
        if s.routes[n].inUse then
          done (setEntry s n fun x => { x with circuits := modAt x.circuits c f }) [inOutTok s.routes[n].circuits[c]]
        else refuse s .absent
      | _, _ => refuse s .range
    | _, _ => refuse s .form
  | _ => refuse s .form

def execMark (ops : List Text) (s : State) : Host.Outcome State Fault Refusal :=
  runRequest "MARK" (entryLevel ops) (membership (fun _ => true) ops) ops s

def execUnmark (ops : List Text) (s : State) : Host.Outcome State Fault Refusal :=
  runRequest "UNMARK" (entryLevel ops) (membership (fun _ => false) ops) ops s

def execFlip (ops : List Text) (s : State) : Host.Outcome State Fault Refusal :=
  runRequest "FLIP" (entryLevel ops) (membership not ops) ops s

def execTest (ops : List Text) (s : State) : Host.Outcome State Fault Refusal :=
  runRequest "TEST" (fun _ => 1) (membership id ops) ops s

/-! ### The two sets (R104) -/

/-- A circuit list operand, judged under R99. -/
def circuitListOf (ops : List Text) : Except Reason CircuitSet :=
  match ops with
  | [t] => match listForm circuitForm t with
    | none => .error .form
    | some l => match circuitsInRange l with
      | none => .error .range
      | some cs => .ok (setOf cs)
  | _ => .error .form

def bodyDefaults (ops : List Text) (s : State) : State × Answer :=
  match circuitListOf ops with
  | .error r => refuse s r
  | .ok c => done { s with defaultSet := c } [circuitSetTok s.defaultSet, circuitSetTok c]

def execDefaults (ops : List Text) (s : State) : Host.Outcome State Fault Refusal :=
  runRequest "DEFAULTS" (fun _ => 2) (bodyDefaults ops) ops s

def bodyFlashset (ops : List Text) (s : State) : State × Answer :=
  match circuitListOf ops with
  | .error r => refuse s r
  | .ok c => done { s with flashSet := c } [circuitSetTok s.flashSet, circuitSetTok c]

def execFlashset (ops : List Text) (s : State) : Host.Outcome State Fault Refusal :=
  runRequest "FLASHSET" (fun _ => 2) (bodyFlashset ops) ops s

/-! ### PRECEDENCE (R107) -/

/-- The table as ten numbers, base and climb, FLASH to DEFERRED. -/
def precedenceToks (p : Vector PrecRow 5) : List Text :=
  (p.toList.map fun r => [decimal r.base, decimal r.climb]).flatten

/-- R107: every base at most 255. -/
def basesInRange (p : Vector PrecRow 5) : Bool := p.toList.all fun r => r.base ≤ 255

/-- R107: the bases decrease strictly from FLASH to DEFERRED. -/
def basesDecrease (p : Vector PrecRow 5) : Bool :=
  p[1].base < p[0].base && p[2].base < p[1].base && p[3].base < p[2].base && p[4].base < p[3].base

def bodyPrecedence (ops : List Text) (s : State) : State × Answer :=
  if ops = [] then done s (precedenceToks s.precedence)
  else match forms number? ops with
    | some [b0, c0, b1, c1, b2, c2, b3, c3, b4, c4] =>
      let p : Vector PrecRow 5 :=
        #v[⟨b0, min c0 15⟩, ⟨b1, min c1 15⟩, ⟨b2, min c2 15⟩, ⟨b3, min c3 15⟩, ⟨b4, min c4 15⟩]
      if basesInRange p && basesDecrease p then done { s with precedence := p } (precedenceToks p)
      else refuse s .range
    | _ => refuse s .form

def execPrecedence (ops : List Text) (s : State) : Host.Outcome State Fault Refusal :=
  runRequest "PRECEDENCE" (fun _ => 3) (bodyPrecedence ops) ops s

/-! ### QUEUE (R125, R126) -/

/-- A record's token: key, take (with "@" and the resume offset if present), class, kind, age and score, joined by "/". -/
def recordTok (s : State) (r : Rec) : Text :=
  let place := match r.ref with
    | some f => [keyText s f.slot, takeTok f.take ++ match r.resume with
      | some o => ch '@' :: decimal o
      | none => []]
    | none => [txt "-", txt "-"]
  joined houseSlash (place ++ [[classLetter r.cls], recKindTok r.kind, decimal r.age, decimal (scoreOf s r)])

def bodyQueue (ops : List Text) (s : State) : State × Answer :=
  match ops with
  | [cn] => match circuitForm cn with
    | none => refuse s .form
    | some k => match below? 16 k with
      | none => refuse s .range
      | some c =>
        let q := s.circuits[c].queue
        done s ([circuitTok c, decimal q.length, decimal s.freeCount] ++ (q.take Config.queueListing).map (recordTok s))
  | _ => refuse s .form

def execQueue (ops : List Text) (s : State) : Host.Outcome State Fault Refusal :=
  runRequest "QUEUE" (fun _ => 1) (bodyQueue ops) ops s

end Sys2Proof.Machine
end

