-- ==== Sys2Proof/Machine/ServiceRequests.lean ====
section
/-!
DEFINITION. Machine/ServiceRequests.lean: QUIET, WAKE, FULL, REDUCED, RESTART and STATUS
(spec/10_service_modes_and_start_up.md).
-/
namespace Sys2Proof.Machine

open Sys2Proof

/-- A request that takes no operands: FORM if one is typed. -/
def noOperands (ops : List Text) (s : State) (r : State × Answer) : State × Answer := if ops = [] then r else refuse s .form

/-! ### QUIET (R197) -/

def bodyQuiet (ops : List Text) (s : State) : State × Answer :=
  noOperands ops s <|
    if s.mode.quiet then kept s [onOffTok true]
    else done (atOnce (changeMode s fun m => { m with quiet := true })) [onOffTok false, onOffTok true]

def execQuiet (ops : List Text) (s : State) : Host.Outcome State Fault Refusal :=
  runRequest "QUIET" (fun _ => 2) (bodyQuiet ops) ops s

/-! ### WAKE (R199) -/

def wakePart (s : State) : State := changeMode (tableCheck s) fun m => { m with quiet := false }

def bodyWake (ops : List Text) (s : State) : State × Answer :=
  noOperands ops s <|
    if s.mode.quiet then
      let t := wakePart s
      done (atOnce t) [checkTok t.mode.loadedFlag, checkTok t.mode.consistentFlag]
    else kept s [onOffTok false]

def execWake (ops : List Text) (s : State) : Host.Outcome State Fault Refusal :=
  runRequest "WAKE" (fun _ => 2) (bodyWake ops) ops s

/-! ### FULL (R201) -/

def bodyFull (ops : List Text) (s : State) : State × Answer :=
  noOperands ops s <|
    if s.mode.service = .full then kept s [serviceTok .full]
    else done (atOnce (changeMode s fun m => { m with service := .full })) [serviceTok .reduced, serviceTok .full]

def execFull (ops : List Text) (s : State) : Host.Outcome State Fault Refusal :=
  runRequest "FULL" (fun _ => 2) (bodyFull ops) ops s

/-! ### REDUCED (R200) -/

/-- Service and window as results. -/
def serviceToks (m : Mode) : List Text := [serviceTok m.service, windowTok m.windowFirst m.windowLast]

def reduceService (s : State) (a b : CircuitNo) : State :=
  changeMode s fun m => { m with service := .reduced, windowFirst := a, windowLast := b }

def bodyReduced (ops : List Text) (s : State) : State × Answer :=
  match ops with
  | [ta, tb] => match circuitForm ta, circuitForm tb with
    | some m, some n => match below? 16 m, below? 16 n with
      | some a, some b =>
        if a ≤ b then
          done (atOnce (reduceService s a b)) (serviceToks s.mode ++ [serviceTok .reduced, windowTok a b])
        else refuse s .range
      | _, _ => refuse s .range
    | _, _ => refuse s .form
  | _ => refuse s .form

def execReduced (ops : List Text) (s : State) : Host.Outcome State Fault Refusal :=
  runRequest "REDUCED" (fun _ => 2) (bodyReduced ops) ops s

/-! ### RESTART (R169, R202) -/

/-- The effect waits for the end of the message's execution. -/
def bodyRestart (ops : List Text) (s : State) : State × Answer :=
  noOperands ops s (done (modMgmt s fun m => { m with restartDue := true }) [])

def execRestart (ops : List Text) (s : State) : Host.Outcome State Fault Refusal :=
  runRequest "RESTART" (fun _ => 3) (bodyRestart ops) ops s

/-! ### STATUS (R203) -/

def linesWhere (s : State) (p : Line → Bool) : Text :=
  listTok (((List.finRange 24).filter fun l => p s.lines[l]).map lineTok)

def circuitsWhere (s : State) (p : Circuit → Bool) : Text :=
  listTok (((List.finRange 16).filter fun c => p s.circuits[c]).map circuitTok)

/-- R203: a line or circuit with an empty rate set is in neither of its lists. -/
def statusToks (s : State) : List Text :=
  [onOffTok s.mode.quiet, serviceTok s.mode.service, windowTok s.mode.windowFirst s.mode.windowLast,
    circuitTok s.mgmt.reportCircuit, onOffTok s.latch.alertMode, checkTok s.mode.loadedFlag, checkTok s.mode.consistentFlag,
    linesWhere s lineInService, linesWhere s (fun x => x.desc.rates ≠ noneOf 8 && x.outOfService),
    circuitsWhere s circuitInService, circuitsWhere s (fun x => x.desc.rates ≠ noneOf 8 && x.outOfService)]

def bodyStatus (ops : List Text) (s : State) : State × Answer := noOperands ops s (done s (statusToks s))

def execStatus (ops : List Text) (s : State) : Host.Outcome State Fault Refusal :=
  runRequest "STATUS" (fun _ => 1) (bodyStatus ops) ops s

end Sys2Proof.Machine
end

