-- ==== Sys2Proof/Machine/SetupRequests.lean ====
section
/-!
DEFINITION. Machine/SetupRequests.lean: UNKNOWN_REQUEST, and the requests that describe lines and circuits: LINE (R4, R5),
LINEBANK (R56), CIRCUIT (R130, R131) and REPORTTO (R175).
-/
namespace Sys2Proof.Machine

open Sys2Proof

/-- R167 step 1: a request line whose verb is not in the catalogue is refused FORM; its standing is not judged. -/
def execUnknownRequest (verb : Text) (ops : List Text) (s : State) : Host.Outcome State Fault Refusal :=
  if inTurn s verb ops ∧ verb ∉ catalogue then .next (answerWith verb (refuse (popLine s) .form)) else .next s

/-! ### LINE -/


/-- R4, third condition: the operands that must be in their forms. -/
def lineForms (rates width stop bank agency : Text) : Option (RateSet × Width × Stop × BankNo × Option Agency) :=
  match rateSetForm rates, widthForm width, stopForm stop, bankInRange bank, agencyForm agency with
  | some r, some w, some p, some b, some a => some (r, w, p, b, a)
  | _, _, _, _, _ => none

/-- The descriptor as results, in operand order (spec/11_message_layouts.md, "Results of each request"). -/
def lineDescToks (d : LineDesc) : List Text :=
  [rateSetTok d.rates, widthTok d.width, stopTok d.stop, bankTok d.bank, anyAgencyTok d.agency, decimal d.clearance,
    decimal d.silenceLimit]

/-- R4 after the line number has been found in range; `d` carries the operands in their forms. -/
def lineJudged (s : State) (l : LineNo) (f : RateSet × Width × Stop × BankNo × Option Agency) (clr sil : Nat) :
    State × Answer :=
  match below? 4 clr with
  | none => refuse s .range
  | some c =>
    if kindMatches f.2.1 s.banks[f.2.2.2.1].kind then
      let d : LineDesc :=
        { rates := f.1, width := f.2.1, stop := f.2.2.1, bank := f.2.2.2.1, agency := f.2.2.2.2, clearance := c
          silenceLimit := min sil 255 }
      done (atOnce (setLine s l d)) (lineDescToks d)
    else refuse s .form

/-- R4, R5. -/
def bodyLine (ops : List Text) (s : State) : State × Answer :=
  match ops with
  | [ln, rates, width, stop, bank, agency, clr, sil] =>
    match lineForm ln, number? clr, number? sil with
    | some n, some c, some v => match below? 24 n with
      | none => refuse s .range
      | some l => match lineForms rates width stop bank agency with
        | none => refuse s .form
        | some f => lineJudged s l f c v
    | _, _, _ => refuse s .form
  | _ => refuse s .form

def execLine (ops : List Text) (s : State) : Host.Outcome State Fault Refusal :=
  runRequest "LINE" (fun _ => 3) (bodyLine ops) ops s

/-! ### LINEBANK -/

/-- R56. The table's rows are judged in order, so that naming the line's own bank is answered KEPT where that bank no longer
matches the line's width, and DONE elsewhere (notes/assumptions/29.md). -/
def bodyLinebank (ops : List Text) (s : State) : State × Answer :=
  match ops with
  | [ln, bk] =>
    match lineForm ln, bankForm bk with
    | some n, some m => match below? 24 n with
      | none => refuse s .range
      | some l => match below? 4 m with
        | none => kept s [bankTok s.lines[l].desc.bank]
        | some b =>
          if kindMatches s.lines[l].desc.width s.banks[b].kind then
            done (modLine s l fun x => { x with desc := { x.desc with bank := b } }) [bankTok b]
          else kept s [bankTok s.lines[l].desc.bank]
    | _, _ => refuse s .form
  | _ => refuse s .form

def execLinebank (ops : List Text) (s : State) : Host.Outcome State Fault Refusal :=
  runRequest "LINEBANK" (fun _ => 2) (bodyLinebank ops) ops s

/-! ### CIRCUIT -/

/-- `n` replaced by the nearest end of the range `lo`–`hi` (R130). -/
def clampTo (lo hi n : Nat) : Nat := max lo (min hi n)

/-- R130, first condition, for the operands after the circuit number; the three numbers are clamped. -/
def circuitForms (rates width stop bank carriage delay runOn opt : Text) : Option CircuitDesc :=
  match rateSetForm rates, widthForm width, stopForm stop, bankInRange bank, number? carriage, number? delay,
    number? runOn, onOffForm opt with
  | some r, some w, some p, some b, some cw, some md, some ro, some o =>
    some
      { rates := r, width := w, stop := p, bank := b, carriage := clampTo 20 120 cw, motorDelay := min md 255
        runOn := min ro 255, bulletinBreak := o }
  | _, _, _, _, _, _, _, _ => none

def circuitDescToks (d : CircuitDesc) : List Text :=
  [rateSetTok d.rates, widthTok d.width, stopTok d.stop, bankTok d.bank, decimal d.carriage, decimal d.motorDelay,
    decimal d.runOn, onOffTok d.bulletinBreak]

/-- R131: an accepted CIRCUIT takes effect. -/
def setCircuit (s : State) (c : CircuitNo) (d : CircuitDesc) : State :=
  let a := modCircuit s c fun x => { x with desc := d, outOfService := false }
  if d.rates = noneOf 8 then circuitOut a c else workTest a c

/-- R130 after the forms have been read. -/
def circuitJudged (s : State) (n : Nat) (d : CircuitDesc) : State × Answer :=
  match below? 16 n with
  | none => refuse s .range
  | some c =>
    if kindMatches d.width s.banks[d.bank].kind then
      if s.circuits[c].sender.state = .stopped then done (atOnce (setCircuit s c d)) (circuitDescToks d)
      else refuse s .mode
    else refuse s .form

/-- R130, R131. -/
def bodyCircuit (ops : List Text) (s : State) : State × Answer :=
  match ops with
  | [cn, rates, width, stop, bank, carriage, delay, runOn, opt] =>
    match circuitForm cn, circuitForms rates width stop bank carriage delay runOn opt with
    | some n, some d => circuitJudged s n d
    | _, _ => refuse s .form
  | _ => refuse s .form

def execCircuit (ops : List Text) (s : State) : Host.Outcome State Fault Refusal :=
  runRequest "CIRCUIT" (fun _ => 3) (bodyCircuit ops) ops s

/-! ### REPORTTO -/

/-- R175. -/
def bodyReportto (ops : List Text) (s : State) : State × Answer :=
  match ops with
  | [cn] => match circuitForm cn with
    | none => refuse s .form
    | some n => match below? 16 n with
      | none => refuse s .range
      | some c => done (atOnce (moveReports s c)) [circuitTok s.mgmt.reportCircuit, circuitTok c]
  | _ => refuse s .form

def execReportto (ops : List Text) (s : State) : Host.Outcome State Fault Refusal :=
  runRequest "REPORTTO" (fun _ => 3) (bodyReportto ops) ops s

end Sys2Proof.Machine
end

