-- ==== Sys2Proof/Machine/StoreRequests.lean ====
section
/-!
DEFINITION. Machine/StoreRequests.lean: the store's requests (R82–R90).
-/
namespace Sys2Proof.Machine

open Sys2Proof

/-! ### Judging (R82) -/

/-- The single key operand of a request. -/
def keyOperand (ops : List Text) : Option Key :=
  match ops with
  | [t] => keyForm t
  | _ => none

/-- R82 for a request on a story that must be there: FORM, then ABSENT on a miss. -/
def withStory (ops : List Text) (s : State) (f : SlotNo → State × Answer) : State × Answer :=
  match keyOperand ops with
  | none => refuse s .form
  | some k => match lookup s k with
    | none => refuse s .absent
    | some n => f n

/-- A request with no operands. -/
def bare (ops : List Text) (s : State) (r : State × Answer) : State × Answer := if ops = [] then r else refuse s .form

/-! ### HOLD, UNHOLD, UNHOLDALL (R83, R84) -/

def heldCount (s : State) : Nat := ((List.finRange 40).filter fun n => s.slots[n].held).length

/-- The slot is held and moves to the front. -/
def holdSlot (s : State) (n : SlotNo) : State := slotToFront (modSlot s n fun x => { x with held := true }) n

def bodyHold (ops : List Text) (s : State) : State × Answer :=
  match keyOperand ops with
  | none => refuse s .form
  | some k => match lookup s k with
    | some n =>
      if s.slots[n].held || heldCount s < Config.heldLimit then done (holdSlot s n) [slotTok n] else refuse s .full
    | none =>
      if heldCount s < Config.heldLimit then
        match slotToAllocate s with
        | some n => done (holdSlot (allocate s n k) n) [slotTok n]
        | none => refuse s .full
      else refuse s .full

def execHold (ops : List Text) (s : State) : Host.Outcome State Fault Refusal :=
  runRequest "HOLD" (fun _ => 1) (bodyHold ops) ops s

def bodyUnhold (ops : List Text) (s : State) : State × Answer :=
  withStory ops s fun n => done (slotToFront (modSlot s n fun x => { x with held := false }) n) [slotTok n]

def execUnhold (ops : List Text) (s : State) : Host.Outcome State Fault Refusal :=
  runRequest "UNHOLD" (fun _ => 1) (bodyUnhold ops) ops s

def bodyUnholdall (ops : List Text) (s : State) : State × Answer :=
  bare ops s (done { s with slots := mapAll s.slots fun x => { x with held := false } } [decimal (heldCount s)])

def execUnholdall (ops : List Text) (s : State) : Host.Outcome State Fault Refusal :=
  runRequest "UNHOLDALL" (fun _ => 2) (bodyUnholdall ops) ops s

/-! ### REPEAT (R85) -/

/-- REPEAT's operands in their forms. -/
structure RepeatOperands where
  key : Key
  range : Option (Nat × Nat)
  circuits : List Nat
  cls : Class
  deriving DecidableEq, Repr

/-- A take, or a take range. -/
def takesForm (t : Text) : Option (Nat × Nat) :=
  match takeForm t with
  | some n => some (n, n)
  | none => rangeForm t

/-- The circuits and the class, if one is typed. -/
def repeatTail (k : Key) (r : Option (Nat × Nat)) : List Text → Option RepeatOperands
  | [cs] => (listForm circuitForm cs).map fun l => { key := k, range := r, circuits := l, cls := .routine }
  | [cs, cl] => match listForm circuitForm cs, classForm cl with
    | some l, some c => some { key := k, range := r, circuits := l, cls := c }
    | _, _ => none
  | _ => none

def repeatForms : List Text → Option RepeatOperands
  | kt :: t :: rest => match keyForm kt with
    | none => none
    | some k => match takesForm t with
      | some r => repeatTail k (some r) rest
      | none => repeatTail k none (t :: rest)
  | _ => none

/-- R82: takes at most 11, the first not above the last. -/
def rangeInRange (r : Option (Nat × Nat)) : Bool :=
  match r with
  | none => true
  | some (a, b) => a ≤ 11 && b ≤ 11 && a ≤ b

/-- R85: the stored takes of a slot whose numbers lie in the range, or all of them. -/
def takesToRepeat (x : Slot) (r : Option (Nat × Nat)) : List TakeNo :=
  (List.finRange 12).filter fun t => isStored x t && match r with
    | none => true
    | some (a, b) => a ≤ t.val && t.val ≤ b

/-- R85: a circuit is passed over when it is inhibited or holds a queued RPT record of the take. -/
def passedOver (s : State) (n : SlotNo) (t : TakeNo) (c : CircuitNo) : Bool :=
  !circuitInService s.circuits[c] || s.circuits[c].queue.any fun r => ofTake n t r && r.kind = .rpt

/-- The part and the two numbers of REPEAT's answer: records queued, records not made. -/
structure Repeating where
  state : State
  queued : Nat
  unmade : Nat

/-- R85: one pair of take and circuit. Once the pool has been found empty no more records are made. -/
def repeatTurn (n : SlotNo) (cls : Class) (a : Repeating) (p : TakeNo × CircuitNo) : Repeating :=
  if passedOver a.state n p.1 p.2 then a
  else if 0 < a.unmade then { a with unmade := a.unmade + 1 }
  else if 0 < a.state.freeCount then
    { a with state := makeFree a.state p.2 n (freshRecord n p.1 cls .rpt []), queued := a.queued + 1 }
  else { a with state := raise a.state .poolEmpty (.circuit p.2), unmade := 1 }

/-- R117: the returns and starts taken before a pair's turn, and the turn. -/
def repeatPair (n : SlotNo) (cls : Class) (a : Repeating) (p : TakeNo × CircuitNo) : Repeating :=
  repeatTurn n cls { a with state := inGap takenBeforeTurn a.state } p

/-- The pairs in ascending take order and, for each take, ascending circuit order. -/
def repeatPairs (ts : List TakeNo) (cs : CircuitSet) : List (TakeNo × CircuitNo) :=
  (ts.map fun t => (members cs).map fun c => (t, c)).flatten

def doRepeat (s : State) (n : SlotNo) (r : Option (Nat × Nat)) (cs : CircuitSet) (cls : Class) : State × Answer :=
  let a := (repeatPairs (takesToRepeat s.slots[n] r) cs).foldl (repeatPair n cls) { state := s, queued := 0, unmade := 0 }
  done (atOnce (slotToFront a.state n)) [decimal a.queued, decimal a.unmade]

def bodyRepeat (ops : List Text) (s : State) : State × Answer :=
  match repeatForms ops with
  | none => refuse s .form
  | some o =>
    if rangeInRange o.range then
      match forms (below? 16) o.circuits with
      | none => refuse s .range
      | some cs => match lookup s o.key with
        | none => refuse s .absent
        | some n => doRepeat s n o.range (setOf cs) o.cls
    else refuse s .range

def execRepeat (ops : List Text) (s : State) : Host.Outcome State Fault Refusal :=
  runRequest "REPEAT" (fun _ => 1) (bodyRepeat ops) ops s

/-! ### WITHDRAW (R86) -/

def tallyToks (t : Tally) : List Text := [decimal t.queued, decimal t.carried, decimal t.suspended]

/-- R86 steps 5 and 6 for a held slot: it keeps its key and its held flag. -/
def emptiedHeld (x : Slot) : Slot := { Slot.freed with state := x.state, key := x.key, held := true }

/-- R86. -/
def withdrawStory (s : State) (n : SlotNo) : State :=
  let a := switchFramers (fun m => m = n) (pullRecords (names n) .withdrawal s)
  if s.slots[n].held then modSlot a n emptiedHeld else slotToTail (modSlot a n fun _ => Slot.freed) n

def bodyWithdraw (ops : List Text) (s : State) : State × Answer :=
  withStory ops s fun n => done (withdrawStory s n) (tallyToks (tallyOf (names n) s))

def execWithdraw (ops : List Text) (s : State) : Host.Outcome State Fault Refusal :=
  runRequest "WITHDRAW" (fun _ => 2) (bodyWithdraw ops) ops s

/-! ### CLEARUNHELD and CLEARSTORE (R87, R88) -/

def evictableCount (s : State) : Nat := ((List.finRange 40).filter fun n => evictable s.slots[n]).length

def bodyClearunheld (ops : List Text) (s : State) : State × Answer :=
  bare ops s (done
    { s with slots := mapAll s.slots (fun x => if evictable x then Slot.freed else x), recency := recencyReset }
    [decimal (evictableCount s)])

def execClearunheld (ops : List Text) (s : State) : Host.Outcome State Fault Refusal :=
  runRequest "CLEARUNHELD" (fun _ => 3) (bodyClearunheld ops) ops s

/-- The record reads the store: it is not detached. -/
def namesAny (r : Rec) : Bool := r.ref ≠ none

/-- R88. -/
def clearStore (s : State) : State :=
  { switchFramers (fun _ => true) (pullRecords namesAny .storeCut s) with
    slots := Vector.replicate 40 Slot.freed
    recency := recencyReset }

def bodyClearstore (ops : List Text) (s : State) : State × Answer :=
  bare ops s (done (clearStore s) (tallyToks (tallyOf namesAny s)))

def execClearstore (ops : List Text) (s : State) : Host.Outcome State Fault Refusal :=
  runRequest "CLEARSTORE" (fun _ => 3) (bodyClearstore ops) ops s

/-! ### TAKEWAIT (R89) -/

def bodyTakewait (ops : List Text) (s : State) : State × Answer :=
  match ops with
  | [t] => match number? t with
    | none => refuse s .form
    | some n => done { s with takeWait := min n 255 } [decimal (min n 255)]
  | _ => refuse s .form

def execTakewait (ops : List Text) (s : State) : Host.Outcome State Fault Refusal :=
  runRequest "TAKEWAIT" (fun _ => 3) (bodyTakewait ops) ops s

/-! ### STORY (R90) -/

def dash : Text := txt "-"

/-- A present take's token: its ten fields joined by "/". -/
def storyTakeTok (t : TakeNo) (k : Take) : Text :=
  joined houseSlash
    [takeTok t, takeStateTok k.state, [classLetter k.cls], decimal k.current.length,
      if k.current.cut then txt "CUT" else txt "WHOLE", decimal k.subCount, if k.late then txt "LATE" else dash,
      match k.fillingLine with
      | some l => lineTok l
      | none => dash,
      if k.replacement.isSome then txt "R" else dash,
      match k.superseded with
      | some (_, n) => ch 'S' :: decimal n
      | none => dash]

/-- The slug between double quotes, or "-". -/
def slugTok (x : Option Text) : Text :=
  match x with
  | some t => ch '"' :: t ++ [ch '"']
  | none => dash

def storyToks (n : SlotNo) (x : Slot) : List Text :=
  [slotTok n, if x.held then txt "HELD" else txt "UNHELD",
    match x.category with
    | some c => categoryTok c
    | none => dash,
    slugTok x.slug,
    match x.lastTake with
    | some t => takeTok t
    | none => dash,
    takeSetTok x.passed, decimal x.pendingCount] ++ (presentTakes x).map fun p => storyTakeTok p.1 p.2

def bodyStory (ops : List Text) (s : State) : State × Answer :=
  withStory ops s fun n => done s (storyToks n s.slots[n])

def execStory (ops : List Text) (s : State) : Host.Outcome State Fault Refusal :=
  runRequest "STORY" (fun _ => 1) (bodyStory ops) ops s

end Sys2Proof.Machine
end

