-- ==== Sys2Proof/Machine/TimerEvents.lean ====
section
/-!
DEFINITION. Machine/TimerEvents.lean: the events of the store's, the scheduler's and the senders' timers, a character sent,
and the end of a message's execution.
-/
namespace Sys2Proof.Machine

open Sys2Proof

/-- R74: the wait timer of a WAITING take expires. A timer that is not running does not expire. -/
def waitExpires (n : SlotNo) (t : TakeNo) (s : State) : State :=
  if isWaiting s.slots[n] t then expireWait s n t else s

def execWaitTimerExpires (n : SlotNo) (t : TakeNo) (s : State) : Host.Outcome State Fault Refusal :=
  runEvent (waitExpires n t) s

/-- R109: a queued record's age rises by one, up to 4095. -/
def aged (r : Rec) : Rec := { r with age := satInc Config.ageTop r.age }

def ageQueues (s : State) : State :=
  { s with circuits := mapAll s.circuits fun x => { x with queue := x.queue.map aged } }

/-- R109: the second. It moves no timer: each expiry is a command of its own (notes/assumptions/4.md). -/
def execSecondAgeing (s : State) : Host.Outcome State Fault Refusal := runBareEvent ageQueues s

def execMotorStartTimerExpires (c : CircuitNo) (s : State) : Host.Outcome State Fault Refusal := runEvent (motorReady c) s

/-- R136: the run-on timer of a PAUSING sender expires. -/
def runOnEnds (c : CircuitNo) (s : State) : State :=
  if s.circuits[c].sender.state = .pausing then modSender s c Sender.halted else s

def execRunOnTimerExpires (c : CircuitNo) (s : State) : Host.Outcome State Fault Refusal := runBareEvent (runOnEnds c) s

/-- R137. -/
def execCharacterSent (c : CircuitNo) (s : State) : Host.Outcome State Fault Refusal :=
  runEvent (fun t => charSent t c) s

/-- R169, R171, R178: after the last request line, and after an accepted RESTART has taken effect, the reply is closed
and placed and the buffer released. While request lines remain, or no message is being executed, there is no such event. -/
def executionEnds (s : State) : State :=
  if s.mgmt.buffer = .executing ∧ s.mgmt.lines = [] then
    let a := if s.mgmt.restartDue then restart s else s
    match a.mgmt.reply with
    | some r => releaseBuffer (placeReply a (closedReply r))
    | none => releaseBuffer a
  else s

def execExecutionEnds (s : State) : Host.Outcome State Fault Refusal := runEvent executionEnds s

end Sys2Proof.Machine
end

