-- ==== Sys2Proof/Machine/Dispatch.lean ====
section
/-!
DEFINITION. Machine/Dispatch.lean: the meaning of every command, one arm per constructor of Instr, in the table's order.
-/
namespace Sys2Proof.Machine

open Sys2Proof

/-- A command's effect on everything but the queue of commands. -/
def exec (i : Instr) (s : State) : Host.Outcome State Fault Refusal :=
  match i with
  | .resetAsserted => Sys2Proof.Machine.execResetAsserted s
  | .resetReleased => Sys2Proof.Machine.execResetReleased s
  | .characterArrives l d m => Sys2Proof.Machine.execCharacterArrives l d m s
  | .breakWatchExpires l => Sys2Proof.Machine.execBreakWatchExpires l s
  | .markingIntervalExpires l => Sys2Proof.Machine.execMarkingIntervalExpires l s
  | .silenceTimerExpires l => Sys2Proof.Machine.execSilenceTimerExpires l s
  | .unknownRequest v ops => Sys2Proof.Machine.execUnknownRequest v ops s
  | .line ops => Sys2Proof.Machine.execLine ops s
  | .linebank ops => Sys2Proof.Machine.execLinebank ops s
  | .circuit ops => Sys2Proof.Machine.execCircuit ops s
  | .bankkind ops => Sys2Proof.Machine.execBankkind ops s
  | .bankin ops => Sys2Proof.Machine.execBankin ops s
  | .bankout ops => Sys2Proof.Machine.execBankout ops s
  | .banksub ops => Sys2Proof.Machine.execBanksub ops s
  | .bankshift ops => Sys2Proof.Machine.execBankshift ops s
  | .route ops => Sys2Proof.Machine.execRoute ops s
  | .routeoff ops => Sys2Proof.Machine.execRouteoff ops s
  | .mark ops => Sys2Proof.Machine.execMark ops s
  | .unmark ops => Sys2Proof.Machine.execUnmark ops s
  | .flip ops => Sys2Proof.Machine.execFlip ops s
  | .test ops => Sys2Proof.Machine.execTest ops s
  | .defaults ops => Sys2Proof.Machine.execDefaults ops s
  | .flashset ops => Sys2Proof.Machine.execFlashset ops s
  | .precedence ops => Sys2Proof.Machine.execPrecedence ops s
  | .queue ops => Sys2Proof.Machine.execQueue ops s
  | .hold ops => Sys2Proof.Machine.execHold ops s
  | .unhold ops => Sys2Proof.Machine.execUnhold ops s
  | .unholdall ops => Sys2Proof.Machine.execUnholdall ops s
  | .repeatTakes ops => Sys2Proof.Machine.execRepeat ops s
  | .withdraw ops => Sys2Proof.Machine.execWithdraw ops s
  | .clearunheld ops => Sys2Proof.Machine.execClearunheld ops s
  | .clearstore ops => Sys2Proof.Machine.execClearstore ops s
  | .takewait ops => Sys2Proof.Machine.execTakewait ops s
  | .story ops => Sys2Proof.Machine.execStory ops s
  | .reportto ops => Sys2Proof.Machine.execReportto ops s
  | .status ops => Sys2Proof.Machine.execStatus ops s
  | .quiet ops => Sys2Proof.Machine.execQuiet ops s
  | .wake ops => Sys2Proof.Machine.execWake ops s
  | .full ops => Sys2Proof.Machine.execFull ops s
  | .reduced ops => Sys2Proof.Machine.execReduced ops s
  | .restart ops => Sys2Proof.Machine.execRestart ops s
  | .events ops => Sys2Proof.Machine.execEvents ops s
  | .clearevent ops => Sys2Proof.Machine.execClearevent ops s
  | .mask ops => Sys2Proof.Machine.execMask ops s
  | .alerts ops => Sys2Proof.Machine.execAlerts ops s
  | .counts ops => Sys2Proof.Machine.execCounts ops s
  | .clearcounts ops => Sys2Proof.Machine.execClearcounts ops s
  | .executionEnds => Sys2Proof.Machine.execExecutionEnds s
  | .waitTimerExpires n t => Sys2Proof.Machine.execWaitTimerExpires n t s
  | .secondAgeing => Sys2Proof.Machine.execSecondAgeing s
  | .motorStartTimerExpires c => Sys2Proof.Machine.execMotorStartTimerExpires c s
  | .runOnTimerExpires c => Sys2Proof.Machine.execRunOnTimerExpires c s
  | .characterSent c => Sys2Proof.Machine.execCharacterSent c s
  | .markToSpaceTransition l => Sys2Proof.Machine.execMarkToSpaceTransition l s
  | .spaceToMarkTransition l => Sys2Proof.Machine.execSpaceToMarkTransition l s
  | .falseStart l => Sys2Proof.Machine.execFalseStart l s

end Sys2Proof.Machine
end

