-- ==== Sys2Proof/Safety.lean ====
section
/-!
DEFINITION. Safety.lean: the terms the claims use. What a request leaves besides its own effect, what the commands that move
traffic leave alone, what a sender does when it is offered work or told of withholding, and the invariants that every
step keeps. A run is safe while each of the invariants holds; all of them hold after reset.
-/
namespace Sys2Proof.Machine

open Sys2Proof

/-! ### Executing a request (R166, R167, R170) -/

/-- The message's effective level is at least `lvl` (R167 step 2). -/
abbrev hasStanding (s : State) (lvl : Nat) : Prop := lvl ≤ (s.mgmt.effective.getD 0).val

/-- The next request line of the message being executed is this request, and the message has standing for it. -/
abbrev serves (s : State) (verb : String) (lvl : Nat) (ops : List Text) : Prop :=
  inTurn s (txt verb) ops = true ∧ hasStanding s lvl

/-- The reply line of a request joins the reply under composition (R170, R171). -/
def replied (s : State) (verb : Text) (st : Status) (results : List Text) : State :=
  modMgmt s fun m => { m with reply := m.reply.map (addLine (replyLine verb { status := st, results := results })) }

/-- The command answers DONE with `results` and leaves `t` with the reply line added. -/
def DoneWith (i : Instr) (s : State) (verb : String) (results : List Text) (t : State) : Prop :=
  exec i s = .next (replied t (txt verb) .done results)

/-- The command answers KEPT: its line has been taken and its reply line added, and nothing else has changed. -/
def KeptWith (i : Instr) (s : State) (verb : String) (results : List Text) : Prop :=
  exec i s = .next (replied (popLine s) (txt verb) .kept results)

/-- The command is refused: its line has been taken and its reply line added, and nothing else has changed. -/
def RefusedWith (i : Instr) (s : State) (verb : String) (r : Reason) : Prop :=
  exec i s = .next (replied (popLine s) (txt verb) (.refused r) [])

/-! ### What commands leave alone -/

/-- Nothing but the traffic has changed: the tables, the descriptors and out-of-service marks, the mode state, the report
circuit, the masks and the alert mode, the reset input and the commands waiting are as they were; of the events that come in
the middle of a step none has been added. -/
structure TablesKept (s t : State) : Prop where
  resetLow : t.resetLow = s.resetLow
  pending : t.pending = s.pending
  meanwhile : t.meanwhile <:+ s.meanwhile
  banks : t.banks = s.banks
  takeWait : t.takeWait = s.takeWait
  routes : t.routes = s.routes
  defaultSet : t.defaultSet = s.defaultSet
  flashSet : t.flashSet = s.flashSet
  precedence : t.precedence = s.precedence
  mode : t.mode = s.mode
  reportCircuit : t.mgmt.reportCircuit = s.mgmt.reportCircuit
  alertMode : t.latch.alertMode = s.latch.alertMode
  masks : ∀ k : Fin 12, t.latch.entries[k].masked = s.latch.entries[k].masked
  lineDescs : ∀ l : LineNo, t.lines[l].desc = s.lines[l].desc ∧ t.lines[l].outOfService = s.lines[l].outOfService
  circuitDescs : ∀ c : CircuitNo,
    t.circuits[c].desc = s.circuits[c].desc ∧ t.circuits[c].outOfService = s.circuits[c].outOfService

/-- A slot without what deliveries change in it: pending count, superseded versions and the blocks they free. -/
def slotCore (x : Slot) : Slot :=
  { x with
    pendingCount := 0
    takes := mapAll x.takes (Option.map fun k => { k with superseded := none })
    blockMap := noneOf 64 }

/-- Only deliveries, reports and the latch have changed: queues, senders, the pool, the counts and superseded versions
they move in the slots, the report buffer, and what is latched. Lines, stories and the message are as they were. -/
structure DeliveryOnly (s t : State) : Prop where
  tables : TablesKept s t
  lines : t.lines = s.lines
  recency : t.recency = s.recency
  message : { t.mgmt with reports := s.mgmt.reports } = s.mgmt
  stories : ∀ n : SlotNo, slotCore t.slots[n] = slotCore s.slots[n]

/-- Besides deliveries, reports and the latch, only the story in slot `n` has changed. -/
structure StoryOnly (n : SlotNo) (s t : State) : Prop where
  tables : TablesKept s t
  lines : t.lines = s.lines
  recency : t.recency = s.recency
  message : { t.mgmt with reports := s.mgmt.reports } = s.mgmt
  others : ∀ m : SlotNo, m ≠ n → slotCore t.slots[m] = slotCore s.slots[m]

/-- Only the queue and the sender of circuit `c` have changed. -/
def OnlyCircuit (c : CircuitNo) (s t : State) : Prop :=
  t = modCircuit s c fun x => { x with queue := t.circuits[c].queue, sender := t.circuits[c].sender }

/-- The tables are as they were, and so is every line but `l`. -/
structure LineOnly (l : LineNo) (s t : State) : Prop where
  tables : TablesKept s t
  others : ∀ m : LineNo, m ≠ l → t.lines[m] = s.lines[m]

/-- R181: an occurrence of kind `k` with detail `d` has reached the latch. -/
def Occurred (k : EventKind) (d : Detail) (s t : State) : Prop :=
  (entryOf t k).latched = true ∧
    (entryOf t k).detail = (if (entryOf s k).latched then (entryOf s k).detail else some d) ∧
    (entryOf t k).count = if (entryOf s k).latched then satInc Config.repeatTop (entryOf s k).count else 1

/-! ### Required levels (R98, R167) -/

/-- The level a request needs; `none` for an event and for a verb that is not in the catalogue. -/
def requiredLevel (i : Instr) (s : State) : Option Nat :=
  match i with
  | .line _ => some 3 | .linebank _ => some 2 | .circuit _ => some 3 | .bankkind _ => some 3 | .bankin _ => some 3
  | .bankout _ => some 3 | .banksub _ => some 3 | .bankshift _ => some 3
  | .route ops => some (routeLevel ops s)
  | .routeoff ops => some (entryLevel ops s)
  | .mark ops => some (entryLevel ops s)
  | .unmark ops => some (entryLevel ops s)
  | .flip ops => some (entryLevel ops s)
  | .test _ => some 1 | .defaults _ => some 2 | .flashset _ => some 2 | .precedence _ => some 3 | .queue _ => some 1
  | .hold _ => some 1 | .unhold _ => some 1 | .unholdall _ => some 2 | .repeatTakes _ => some 1 | .withdraw _ => some 2
  | .clearunheld _ => some 3 | .clearstore _ => some 3 | .takewait _ => some 3 | .story _ => some 1
  | .reportto _ => some 3 | .status _ => some 1 | .quiet _ => some 2 | .wake _ => some 2 | .full _ => some 2
  | .reduced _ => some 2 | .restart _ => some 3 | .events _ => some 1 | .clearevent _ => some 2 | .mask _ => some 2
  | .alerts _ => some 2 | .counts _ => some 1 | .clearcounts _ => some 2
  | _ => none

/-! ### Senders offered work, selecting, and told of withholding (R133–R136, R151, R194) -/

/-- R122, R135, R144: circuit `c` has taken up the answer of the selection in the state `m`: the queued record chosen, which has
left the queue; the chain's top, which has left the chain; or the oldest report. -/
def TookUp (m : State) (c : CircuitNo) (x y : Circuit) : Prop :=
  match choose m c with
  | .start i => ∃ r, x.queue[i]? = some r ∧ y.sender.carried = .record r ∧ y.queue = x.queue.eraseIdx i ∧
      y.sender.chain = x.sender.chain
  | .resume r => y.sender.carried = .record r ∧ y.queue = x.queue ∧ x.sender.chain = y.sender.chain ++ [r]
  | .report => y.sender.carried = .report ∧ y.sender.phase = .report ∧ y.queue = x.queue ∧
      y.sender.chain = x.sender.chain
  | .nothing => False

/-- R135, R140: what a record begins with, unless it breaks in: its resume line, or its gap notice and header. -/
def firstLines (m : State) (f : RecRef) (r : Rec) : Text :=
  match r.resume with
  | some _ => resumeLine m f
  | none => gapLine r.gap ++ r.composed.getD (headerLine m f r)

/-- Circuit `c`, whose sender has begun what the selection in the state `m` has chosen, its motor running as `motor` says; its
descriptor is as it was. A record is sent from the first character of its first lines. -/
structure Begun (m : State) (c : CircuitNo) (motor : Bool) (x y : Circuit) : Prop where
  desc : y.desc = x.desc ∧ y.outOfService = x.outOfService
  carrying : y.sender.state = .carrying
  took : TookUp m c x y
  first : ∀ r f h, y.sender.carried = .record r → r.ref = some f → (firstLines m f r).head? = some h →
    x.sender.column ≠ x.desc.carriage →
    y.sender.sending.map Sending.char = some h ∧ y.sender.bodyPos = r.resume.getD 0
  motor : y.sender.motor = motor
  timers : y.sender.motorTimer = none ∧ y.sender.runOnTimer = none
  noBreak : y.sender.breakPending = false
  counters : y.sender.completed = x.sender.completed ∧ y.sender.missed = x.sender.missed ∧
    y.sender.breaksIn = x.sender.breaksIn

/-- R134: a STOPPED circuit whose sender has entered STARTING; with a motor start delay of 0 it has begun at once. -/
def Started (m : State) (c : CircuitNo) (x y : Circuit) : Prop :=
  if x.desc.motorDelay = 0 then Begun m c true x y
  else y = { x with sender := { x.sender with
    state := .starting, motor := true, belief := .unknown, motorTimer := some x.desc.motorDelay } }

/-- R133, R136: circuit `c`, offered work in the state `m`: STOPPED it tests for work, PAUSING it selects. -/
def Offered (m : State) (c : CircuitNo) (x y : Circuit) : Prop :=
  match x.sender.state with
  | .stopped => if circuitInService x ∧ hasWork m c then Started m c x y else y = x
  | .pausing => if hasWork m c then Begun m c x.sender.motor x y else y = x
  | _ => y = x

/-- R135, R136: circuit `c`, its sender asking for a selection in the state `m` from STARTING or CARRYING: it begins what is
chosen, and otherwise pauses, or stops at once where the run-on is 0. -/
def Selected (m : State) (c : CircuitNo) (x y : Circuit) : Prop :=
  if hasWork m c then Begun m c x.sender.motor x y
  else y = { x with sender :=
    if x.desc.runOn = 0 then x.sender.halted
    else { x.sender.bare with state := .pausing, motorTimer := none, runOnTimer := some x.desc.runOn, column := 0 } }

/-- R151, left column: a circuit told that its withholding has begun or widened. -/
def withheldMore (m : State) (c : CircuitNo) (x : Circuit) : Circuit :=
  match x.sender.state with
  | .starting => if hasWork m c then x else { x with sender := x.sender.halted }
  | .carrying =>
    if carriedAllowed m c then x else { x with sender := { x.sender with state := .closing, breakPending := false } }
  | _ => x

/-- R194: circuit `c` after its degree has gone from `a` to `b`; it is told only of a change. -/
def Told (a b : Degree) (m : State) (c : CircuitNo) (x y : Circuit) : Prop :=
  if degreeRank a < degreeRank b then y = withheldMore m c x
  else if degreeRank b < degreeRank a then Offered m c x y
  else y = x

/-- The mode state has become `m`, every sender has been told, and nothing else has changed (R194). -/
structure ModeChanged (m : Mode) (s t : State) : Prop where
  rest : { t with circuits := s.circuits } = { s with mode := m }
  told : ∀ c : CircuitNo,
    Told (degree s.mode c) (degree m c) { s with mode := m } c s.circuits[c] t.circuits[c]

/-- Only circuit `c` has changed, as `R` says. -/
structure CircuitChanged (c : CircuitNo) (R : Circuit → Circuit → Prop) (s t : State) : Prop where
  rest : OnlyCircuit c s t
  change : R s.circuits[c] t.circuits[c]

/-- The report buffer, offered to its circuit, has one report more (R172). -/
def ReportPlaced (report : Text) (s t : State) : Prop :=
  let m := { s with mgmt := { s.mgmt with reports := s.mgmt.reports ++ [report] } }
  CircuitChanged s.mgmt.reportCircuit (Offered m s.mgmt.reportCircuit) m t

/-! ### Going out of service (R154) -/

/-- R154 steps 1 to 4: a circuit that is out of service holds no record and sends nothing, and its sender is STOPPED. -/
structure CircuitOut (y : Circuit) : Prop where
  records : y.queue = [] ∧ y.sender.chain = [] ∧ y.sender.carried = .nothing
  output : y.sender.sending = none
  stopped : y.sender.state = .stopped ∧ y.sender.motor = false ∧ y.sender.column = 0
  timers : y.sender.motorTimer = none ∧ y.sender.runOnTimer = none
  noBreak : y.sender.breakPending = false

/-- The record stands on the circuit: queued, suspended or carried. -/
def StandsOn (r : Rec) (x : Circuit) : Prop := r ∈ x.queue ∨ r ∈ x.sender.chain ∨ x.sender.carried = .record r

/-- R154 steps 3 and 4: the number of records a circuit counts missed when it goes out of service; a carried record that is
detached is counted nowhere. -/
def missedBy (x : Circuit) : Nat :=
  x.queue.length + x.sender.chain.length + carriedCount (fun r => decide (r.ref ≠ none)) x.sender

/-! ### Invariants -/

/-- The precedence table, the window, the limits and the buffers are within the manual's ranges (R1, R20, R89, R106, R128,
R158, R162, R192, R200). -/
structure TablesSound (s : State) : Prop where
  bases : basesInRange s.precedence = true ∧ basesDecrease s.precedence = true
  climbs : ∀ i : Fin 5, s.precedence[i].climb ≤ 15
  window : s.mode.windowFirst ≤ s.mode.windowLast
  takeWait : s.takeWait ≤ 255
  silence : ∀ l : LineNo, s.lines[l].desc.silenceLimit ≤ 255
  headers : ∀ l : LineNo, s.lines[l].framer.header.length ≤ 64
  circuits : ∀ c : CircuitNo, 20 ≤ s.circuits[c].desc.carriage ∧ s.circuits[c].desc.carriage ≤ 120 ∧
    s.circuits[c].desc.motorDelay ≤ 255 ∧ s.circuits[c].desc.runOn ≤ 255
  message : s.mgmt.lines.length ≤ 16 ∧ s.mgmt.collecting.length ≤ 96
  reports : s.mgmt.reports.length ≤ 8

/-- The counters, ages and substitute counts stand at or below their tops (spec/00_scope.md, "Counters"; R13, R60, R109,
R155, R179). -/
structure CountersSound (s : State) : Prop where
  lines : ∀ l : LineNo, s.lines[l].counters.messagesTaken ≤ 65535 ∧ s.lines[l].counters.headerFaults ≤ 65535 ∧
    s.lines[l].counters.framing ≤ 65535 ∧ s.lines[l].counters.duplicates ≤ 65535 ∧
    s.lines[l].counters.refused ≤ 65535 ∧ s.lines[l].counters.stray ≤ 65535
  circuits : ∀ c : CircuitNo, s.circuits[c].sender.completed ≤ 65535 ∧ s.circuits[c].sender.missed ≤ 65535 ∧
    s.circuits[c].sender.breaksIn ≤ 65535
  repeats : ∀ k : Fin 12, s.latch.entries[k].count ≤ 255
  ages : ∀ c : CircuitNo, (∀ r ∈ s.circuits[c].queue, r.age ≤ 4095) ∧ (∀ r ∈ s.circuits[c].sender.chain, r.age ≤ 4095) ∧
    ∀ r, s.circuits[c].sender.carried = .record r → r.age ≤ 4095
  substitutes : ∀ (n : SlotNo) (t : TakeNo) (k : Take), takeAt s n t = some k → k.subCount ≤ 15

/-- The latch (R179): a clear kind has no detail and a count of 0, and a kind is owed only while it is latched, unmasked and
the alert mode is ON. -/
structure LatchSound (s : State) : Prop where
  clear : ∀ k : Fin 12, s.latch.entries[k].latched = false →
    s.latch.entries[k].detail = none ∧ s.latch.entries[k].count = 0 ∧ s.latch.entries[k].owed = false
  latched : ∀ k : Fin 12, s.latch.entries[k].latched = true →
    s.latch.entries[k].detail ≠ none ∧ 1 ≤ s.latch.entries[k].count
  owed : ∀ k : Fin 12, s.latch.entries[k].owed = true →
    s.latch.entries[k].latched = true ∧ s.latch.entries[k].masked = false ∧ s.latch.alertMode = true

/-- The slots (R58, R61, R64, R83): a FREE slot holds nothing, an OCCUPIED one a key, no two the same key; at most 32 are
held; the recency list holds each slot once. -/
structure SlotsSound (s : State) : Prop where
  free : ∀ n : SlotNo, s.slots[n].state = .free → s.slots[n] = Slot.freed
  keyed : ∀ n : SlotNo, s.slots[n].state = .occupied → s.slots[n].key ≠ none
  distinct : ∀ m n : SlotNo, m ≠ n → s.slots[m].state = .occupied → s.slots[n].state = .occupied →
    s.slots[m].key ≠ s.slots[n].key
  held : heldCount s ≤ 32
  recency : s.recency.Perm (List.finRange 40)

/-- R17, R60: a framer with a take reference is in COPY-BODY, and the take it names is being filled by its line. -/
def FramersSound (s : State) : Prop :=
  ∀ (l : LineNo) (n : SlotNo) (t : TakeNo), s.lines[l].framer.takeRef = some (n, t) →
    s.lines[l].framer.state = .copyBody ∧
      ∃ k, takeAt s n t = some k ∧ fillingTake k = true ∧ k.fillingLine = some l

/-- R150: queued and suspended records name a story; only a carried record can be detached. -/
def WaitingAreNamed (s : State) : Prop :=
  ∀ c : CircuitNo, (∀ r ∈ s.circuits[c].queue, r.ref ≠ none) ∧ ∀ r ∈ s.circuits[c].sender.chain, r.ref ≠ none

/-- A STOPPED, STARTING or PAUSING sender carries nothing (R132). -/
def IdleCarriesNothing (s : State) : Prop :=
  ∀ c : CircuitNo, s.circuits[c].sender.state ≠ .carrying → s.circuits[c].sender.state ≠ .closing →
    s.circuits[c].sender.carried = .nothing

/-- The number of records queued, carried and suspended on a circuit that satisfy `p`. -/
def recordsOn (p : Rec → Bool) (x : Circuit) : Nat :=
  (x.queue.filter p).length + carriedCount p x.sender + (x.sender.chain.filter p).length

/-- The number of records on all circuits that satisfy `p`. -/
def recordsWhere (p : Rec → Bool) (s : State) : Nat := ((List.finRange 16).map fun c => recordsOn p s.circuits[c]).sum

/-- R110: free, queued, carried and suspended records together number 192. -/
structure PoolSound (s : State) : Prop where
  total : s.freeCount + recordsWhere (fun _ => true) s = 192
  idle : IdleCarriesNothing s

/-- R62: every slot's pending count is the number of records that name it. -/
structure PendingSound (s : State) : Prop where
  counts : ∀ n : SlotNo, s.slots[n].pendingCount = recordsWhere (names n) s
  free : ∀ n : SlotNo, s.slots[n].state = .free → s.slots[n] = Slot.freed
  idle : IdleCarriesNothing s

/-- The number of carried and suspended records on all circuits that satisfy `p`. -/
def readersWhere (p : Rec → Bool) (s : State) : Nat :=
  ((List.finRange 16).map fun c =>
    carriedCount p s.circuits[c].sender + (s.circuits[c].sender.chain.filter p).length).sum

/-- R76: a take's superseded version has as many readers as its reader count says, at least one; a take without one has no
such reader; and no queued record reads a superseded version. Every queued and suspended record names a story. -/
structure ReadersSound (s : State) : Prop where
  counts : ∀ (n : SlotNo) (t : TakeNo) (k : Take) (v : Version) (m : Nat), takeAt s n t = some k →
    k.superseded = some (v, m) → 1 ≤ m ∧ m = readersWhere (reads n t .superseded) s
  none : ∀ (n : SlotNo) (t : TakeNo), (∀ k, takeAt s n t = some k → k.superseded = Option.none) →
    readersWhere (reads n t .superseded) s = 0
  queued : ∀ (c : CircuitNo), ∀ r ∈ s.circuits[c].queue, ∀ f, r.ref = some f → f.version = .current
  named : WaitingAreNamed s

/-- The versions of a take: current, replacement, superseded. -/
def versionsOf (k : Take) : List Version :=
  k.current :: ((k.replacement.map Prod.fst).toList ++ (k.superseded.map Prod.fst).toList)

/-- The blocks that stand in the versions of a slot's takes. -/
def blocksOf (x : Slot) : List BlockNo :=
  ((presentTakes x).map fun p => ((versionsOf p.2).map Version.blocks).flatten).flatten

/-- R59, R76: in every slot a block is in use exactly if it stands in a version of one of its takes, and it stands in one
only; a version has a block for each 64 characters begun; and a replacement version exists only while it is being filled
(R60). -/
structure VersionsSound (s : State) : Prop where
  once : ∀ n : SlotNo, (blocksOf s.slots[n]).Nodup
  map : ∀ (n : SlotNo) (b : BlockNo), s.slots[n].blockMap[b] = true ↔ b ∈ blocksOf s.slots[n]
  sizes : ∀ (n : SlotNo) (t : TakeNo) (k : Take), takeAt s n t = some k →
    ∀ v ∈ versionsOf k, v.blocks.length = (v.text.length + 63) / 64
  replacing : ∀ (n : SlotNo) (t : TakeNo) (k : Take), takeAt s n t = some k → k.replacement ≠ none →
    k.state = .filling ∨ k.state = .cutFilling

/-- `a` is higher than `b`. -/
def higher (a b : Class) : Bool := classIdx a < classIdx b

/-- R148: a suspension chain, its top last: at most two records, none of them FLASH, and two only where the upper one is a
BULLETIN over a lower class. -/
def chainSound : List Rec → Bool
  | [] => true
  | [r] => higher .flash r.cls
  | [r, t] => t.cls = .bulletin && higher .bulletin r.cls
  | _ => false

/-- R148: every circuit's chain is sound, and over a chain only a FLASH or a BULLETIN is carried, higher than its top. -/
def ChainsSound (s : State) : Prop :=
  ∀ c : CircuitNo, chainSound s.circuits[c].sender.chain = true ∧
    ∀ r t, s.circuits[c].sender.carried = .record r → s.circuits[c].sender.chain.getLast? = some t →
      (r.cls = .flash ∨ r.cls = .bulletin) ∧ higher r.cls t.cls = true

/-- R132, R138: a sender's column is within the carriage width, with room for an advancing character being sent; while it is
neither CARRYING nor CLOSING it carries and sends nothing at column 0; and its motor runs unless it is STOPPED or the
reset input is held low. -/
structure SenderSound (low : Bool) (x : Circuit) : Prop where
  carriage : 20 ≤ x.desc.carriage
  column : x.sender.column ≤ x.desc.carriage
  room : ∀ g, x.sender.sending = some g → isAdvancing g.char = true → x.sender.column < x.desc.carriage
  idle : x.sender.state ≠ .carrying → x.sender.state ≠ .closing →
    x.sender.carried = .nothing ∧ x.sender.sending = none ∧ x.sender.column = 0
  motor : low = false → x.sender.motor = decide (x.sender.state ≠ .stopped)
  stopped : x.sender.state = .stopped → x.sender.motor = false
  timers : x.sender.motorTimer.isSome = decide (x.sender.state = .starting) ∧
    x.sender.runOnTimer.isSome = decide (x.sender.state = .pausing)

def SendersSound (s : State) : Prop := ∀ c : CircuitNo, SenderSound s.resetLow s.circuits[c]

/-! ### Characters on a line -/

/-- The code of the samples `v` arrives on line `l`, gives the outcome `o` and leaves the shift state `sh` (R7, R8, R39 to
R43). When a character can arrive is notes/assumptions/5.md. -/
abbrev arrives (s : State) (l : LineNo) (v : BitVec 7) (o : Option House) (sh : Shift) : Prop :=
  s.resetLow = false ∧ canArrive s.lines[l] = true ∧
    convertIn s.banks[s.lines[l].desc.bank] s.lines[l].desc.width s.lines[l].shift (lineCode s.lines[l].desc.width v) =
      (o, sh)

/-- A line once a character with its stop sample marking has been handled: the receiver rests, the shift state is `sh`, and
the silence timer is reloaded if the limit is above 0 (R8, R12); the framer is `f` and the counters are `k`. -/
def afterCharacter (sh : Shift) (f : Framer) (k : LineCounters) (x : Line) : Line :=
  { x with
    input := .marking
    receiver := Receiver.reset
    shift := sh
    silence := if 0 < x.desc.silenceLimit then some (x.desc.silenceLimit * 10) else x.silence
    framer := f
    counters := k }

/-- The state with line `l` so. -/
def withLine (s : State) (l : LineNo) (sh : Shift) (f : Framer) (k : LineCounters) : State :=
  modLine s l (afterCharacter sh f k)

/-- The short reply to a message of line `l` (R163, R164): the tag if one was recorded, the line and the word. -/
def shortReplyText (tag : Option Text) (l : LineNo) (word : String) : Text :=
  txt "//R" ++ (match tag with
    | some g => houseSpace :: g
    | none => []) ++ txt " L" ++ decimal l ++ houseSpace :: txt word ++ [houseNL] ++ txt "//E" ++ [houseNL]

/-- The framer in HEADER, with nothing of a header collected (R19). -/
def Framer.inHeader (k : MessageKind) : Framer :=
  { state := .header, kind := k, held := 0, lineStart := false, header := [], takeRef := none }

/-! ### Text in a body, and the end of a message (R26, R27, R33) -/

/-- R26, R27: at a framer in a body the character, with the slashes held before it, is text. -/
def IsText (f : Framer) (h : House) : Prop :=
  (f.held = 0 ∧ ¬(h = houseSlash ∧ f.lineStart = true)) ∨ (f.held = 1 ∧ h ≠ houseSlash) ∨
    (f.held = 2 ∧ h ≠ ch 'C' ∧ h ≠ ch 'M' ∧ h ≠ ch 'E')

/-- The slashes held. -/
def heldSlashes (f : Framer) : Text := List.replicate f.held.val houseSlash

/-- R27: what is passed on: the slashes held, and the character. -/
def passedText (f : Framer) (h : House) : Text := heldSlashes f ++ [h]

/-- R26, R27: the framer once the character has been passed on as text. -/
def afterText (f : Framer) (h : House) : Framer :=
  { f with
    held := 0
    lineStart := decide (h = houseNL) || (decide (f.held = 0) && isFunction h && f.lineStart) }

/-- R33, R71: take `t` of slot `n`, which stood as `k`, has ended cut and is stored, with the text it had, and with the slashes
that were held where they had room in its last block and it was not cut before. -/
def StoredCut (n : SlotNo) (t : TakeNo) (f : Framer) (k : Take) (u : State) : Prop :=
  ∃ k', takeAt u n t = some k' ∧ (k'.state = .released ∨ k'.state = .waiting) ∧ k'.fillingLine = none ∧
    k'.replacement = none ∧ k'.current.cut = true ∧
    ∀ v, v = fillingVersion k →
      (f.held = 0 ∨ k.state = .cutFilling → k'.current.text = v.text) ∧
      (k.state = .filling → 0 < v.text.length % 64 → v.text.length % 64 + f.held.val ≤ 64 →
        k'.current.text = v.text ++ heldSlashes f)

/-- R163: the message has been dropped: the buffer is released, and nothing of the message is left. -/
def Dropped (u : State) : Prop :=
  u.mgmt.buffer = .free ∧ u.mgmt.holder = none ∧ u.mgmt.lines = [] ∧ u.mgmt.collecting = []

/-! ### Best of a queue -/

/-- The record at `i` satisfies `p` and has the highest `f` of those that do, the nearest to the head among equals (R120). -/
def IsBest (p : Rec → Bool) (f : Rec → Nat) (q : List Rec) (i : Nat) : Prop :=
  ∃ r, q[i]? = some r ∧ p r = true ∧
    (∀ (j : Nat) (x : Rec), q[j]? = some x → p x = true → f x ≤ f r) ∧
    ∀ (j : Nat) (x : Rec), j < i → q[j]? = some x → p x = true → f x < f r

/-- The record at `i` satisfies `p` and has the lowest `f` of those that do, the nearest to the tail among equals (R116). -/
def IsWorst (p : Rec → Bool) (f : Rec → Nat) (q : List Rec) (i : Nat) : Prop :=
  ∃ r, q[i]? = some r ∧ p r = true ∧
    (∀ (j : Nat) (x : Rec), q[j]? = some x → p x = true → f r ≤ f x) ∧
    ∀ (j : Nat) (x : Rec), i < j → q[j]? = some x → p x = true → f r < f x

/-- A record of the queue that may interrupt a record of class `y` (R118, R119, R121). -/
def isBreaker (s : State) (c : CircuitNo) (y : Class) (r : Rec) : Bool :=
  isEligible s c r && breaksInto s.circuits[c].desc.bulletinBreak r.cls y

/-- The column once the character being sent has been sent (R138). -/
def columnAfter (g : Sending) (x : Sender) : Nat :=
  if g.char = houseNL then 0 else if isAdvancing g.char then x.column + 1 else x.column

/-- The group of a house character on circuit `c` with belief `b`, and the belief after it (R45 to R48). -/
def groupOf (s : State) (c : CircuitNo) (b : Belief) (h : House) : List LineCode × Belief :=
  convertOut s.banks[s.circuits[c].desc.bank] s.circuits[c].desc.width b h

/-- What a new current version `v` of class `cl` leaves of a take read by `readers` carried and suspended records (R78). -/
def Take.replaced (readers : Nat) (v : Version) (cl : Class) (k : Take) : Take :=
  { k with
    fillingLine := none
    cls := cl
    current := v
    replacement := none
    superseded := if readers = 0 then none else some (k.current, readers)
    subCount := min (k.subCount + 1) 15 }

/-- What a substitute of take `t` in slot `n` leaves of a circuit (R78 to R80): its readers of the superseded version are cut
or removed, its readers of the current version read the superseded one, and its queued records are rewritten. -/
def Circuit.substituted (n : SlotNo) (t : TakeNo) (x : Circuit) : Circuit :=
  let old := reads n t .superseded
  let move : Rec → Rec := fun r =>
    if reads n t .current r then { r with ref := some { slot := n, take := t, version := .superseded } } else r
  { x with
    queue := (x.queue.filter fun r => !old r).map fun r =>
      if ofTake n t r then
        { r with
          ref := some { slot := n, take := t, version := .current }
          resume := none
          composed := none
          kind := if r.kind = .rpt then .rpt else .sub }
      else r
    sender := { x.sender with
      chain := (x.sender.chain.filter fun r => !old r).map move
      carried := match x.sender.carried with
        | .record r => .record (if old r then { r with ref := none } else move r)
        | y => y
      cutTold := match x.sender.carried with
        | .record r => if old r then some .storeCut else x.sender.cutTold
        | _ => x.sender.cutTold } }

/-- The part once the text of take `t` of slot `n`, which stands as `k`, has been replaced by `v` of class `cl` (R78 to R80),
and the slot moved to the front (R71). -/
def afterSubstitute (s : State) (n : SlotNo) (t : TakeNo) (k : Take) (v : Version) (cl : Class) : State :=
  let old := reads n t .superseded
  let readers := readersWhere (reads n t .current) s
  { s with
    recency := n :: s.recency.filter (fun m => m ≠ n)
    freeCount := s.freeCount + ((List.finRange 16).map fun c =>
      (s.circuits[c].queue.filter old).length + (s.circuits[c].sender.chain.filter old).length).sum
    slots := modAt s.slots n fun x =>
      { x with
        pendingCount := x.pendingCount - recordsWhere old s
        takes := put x.takes t (some (k.replaced readers v cl))
        blockMap := tabulate 64 fun b => x.blockMap[b] &&
          !(decide (b ∈ ((k.superseded.map Prod.fst).toList.map Version.blocks).flatten) ||
            (decide (readers = 0) && decide (b ∈ k.current.blocks))) }
    circuits := mapAll s.circuits (Circuit.substituted n t) }

/-- The part as a restart leaves it (R202). -/
def afterRestart (s : State) : State :=
  { s with
    lines := mapAll s.lines fun x => { x with
      receiver := Receiver.reset, shift := .letters, silence := none, framer := Framer.reset, counters := LineCounters.zero }
    slots := Vector.replicate 40 Slot.freed
    recency := List.finRange 40
    freeCount := 192
    circuits := mapAll s.circuits fun x => { x with queue := [], sender := Sender.reset }
    mgmt := { s.mgmt with reports := [] }
    mode := { s.mode with quiet := true, service := .full }
    latch := { s.latch with entries := mapAll s.latch.entries fun e =>
      { latched := false, detail := none, count := 0, masked := e.masked, owed := false } } }

end Sys2Proof.Machine
end

