-- ==== Sys2Proof/WellFormed.lean ====
section
/-!
DEFINITION. WellFormed.lean: which commands can stand for something the part can be given. An event's operands are in
range by their types. A request must be a request line that the management buffer can hold (R162, R167).
-/
namespace Sys2Proof

open Sys2Proof.Machine

/-- The verb and operand tokens of a request command; `none` for an event. -/
def Instr.request? : Instr → Option (Text × List Text)
  | .resetAsserted => none
  | .resetReleased => none
  | .characterArrives _ _ _ => none
  | .breakWatchExpires _ => none
  | .markingIntervalExpires _ => none
  | .silenceTimerExpires _ => none
  | .unknownRequest v ops => some (v, ops)
  | .line ops => some (txt "LINE", ops)
  | .linebank ops => some (txt "LINEBANK", ops)
  | .circuit ops => some (txt "CIRCUIT", ops)
  | .bankkind ops => some (txt "BANKKIND", ops)
  | .bankin ops => some (txt "BANKIN", ops)
  | .bankout ops => some (txt "BANKOUT", ops)
  | .banksub ops => some (txt "BANKSUB", ops)
  | .bankshift ops => some (txt "BANKSHIFT", ops)
  | .route ops => some (txt "ROUTE", ops)
  | .routeoff ops => some (txt "ROUTEOFF", ops)
  | .mark ops => some (txt "MARK", ops)
  | .unmark ops => some (txt "UNMARK", ops)
  | .flip ops => some (txt "FLIP", ops)
  | .test ops => some (txt "TEST", ops)
  | .defaults ops => some (txt "DEFAULTS", ops)
  | .flashset ops => some (txt "FLASHSET", ops)
  | .precedence ops => some (txt "PRECEDENCE", ops)
  | .queue ops => some (txt "QUEUE", ops)
  | .hold ops => some (txt "HOLD", ops)
  | .unhold ops => some (txt "UNHOLD", ops)
  | .unholdall ops => some (txt "UNHOLDALL", ops)
  | .repeatTakes ops => some (txt "REPEAT", ops)
  | .withdraw ops => some (txt "WITHDRAW", ops)
  | .clearunheld ops => some (txt "CLEARUNHELD", ops)
  | .clearstore ops => some (txt "CLEARSTORE", ops)
  | .takewait ops => some (txt "TAKEWAIT", ops)
  | .story ops => some (txt "STORY", ops)
  | .reportto ops => some (txt "REPORTTO", ops)
  | .status ops => some (txt "STATUS", ops)
  | .quiet ops => some (txt "QUIET", ops)
  | .wake ops => some (txt "WAKE", ops)
  | .full ops => some (txt "FULL", ops)
  | .reduced ops => some (txt "REDUCED", ops)
  | .restart ops => some (txt "RESTART", ops)
  | .events ops => some (txt "EVENTS", ops)
  | .clearevent ops => some (txt "CLEAREVENT", ops)
  | .mask ops => some (txt "MASK", ops)
  | .alerts ops => some (txt "ALERTS", ops)
  | .counts ops => some (txt "COUNTS", ops)
  | .clearcounts ops => some (txt "CLEARCOUNTS", ops)
  | .executionEnds => none
  | .waitTimerExpires _ _ => none
  | .secondAgeing => none
  | .motorStartTimerExpires _ => none
  | .runOnTimerExpires _ => none
  | .characterSent _ => none
  | .markToSpaceTransition _ => none
  | .spaceToMarkTransition _ => none
  | .falseStart _ => none

/-- A request line typed with single spaces. -/
def requestLine (verb : Text) (ops : List Text) : Text := joined houseSpace (verb :: ops)

/-- A token is not empty. -/
def tokenHasText (t : Text) : Bool := t ≠ []

/-- A token holds no space (R167). -/
def tokenUnbroken (t : Text) : Bool := houseSpace ∉ t

/-- A token holds neither NL, which ends a request line, nor a function, which the framer drops (R30). -/
def tokenPlain (t : Text) : Bool := t.all fun h => h ≠ houseNL && !isFunction h

/-- The request line is within the length a request line may have (R162). -/
def lineFits (verb : Text) (ops : List Text) : Bool := (requestLine verb ops).length ≤ Config.requestLength

/-- UNKNOWN_REQUEST stands for a verb that is not in the catalogue, the others for their own (R167). -/
def verbFits : Instr → Bool
  | .unknownRequest v _ => v ∉ catalogue
  | _ => true

/-- The command is well formed. -/
def Instr.wellFormed (i : Instr) : Bool :=
  match i.request? with
  | none => true
  | some (verb, ops) =>
    (verb :: ops).all tokenHasText && (verb :: ops).all tokenUnbroken && (verb :: ops).all tokenPlain &&
      lineFits verb ops && verbFits i

end Sys2Proof
end

