-- ==== Sys2Proof/Certificates/Slice0/Obligations.lean ====
section
/-!
DEFINITION. Obligations.lean: the statements for the provers. Each says which rule of spec/ it formalises; where a clause
rests on a choice of the model, it names the entry of notes/assumptions/. Where exec answers `atOnce u`, what a statement says of
`u` holds before the character-sent events that are due at once are taken (notes/assumptions/3.md).
-/
open Sys2Proof Sys2Proof.Machine

/-! ### The machine as a whole -/

/-- A step takes the command at the front of the queue and executes it with the rest in place. With none waiting the part
idles: the model's choice (notes/assumptions/1.md). -/
def Obligations.StepRunsTheFrontCommand : Prop :=
  (∀ (s : State) (c : Instr) (rest : List Instr), s.pending = c :: rest → step s = exec c { s with pending := rest }) ∧
    ∀ s : State, s.pending = [] → step s = .next s

/-- No command faults and none is refused: each leaves a next state, with the waiting commands as they were. That a command
which comes out of its turn leaves a next state, and that a command leaves the queue of waiting commands alone, are the
model's choices (notes/assumptions/2.md and notes/assumptions/1.md). -/
def Obligations.EveryCommandLeavesANextState : Prop :=
  ∀ (i : Instr) (s : State), ∃ t, exec i s = .next t ∧ t.pending = s.pending

/-- R195: asserted, the reset input rests every output and turns every motor off; held low, it keeps every command from
acting but the level of the line inputs; released, it puts every block at its pin-reset values. What the blocks hold between,
and that a release resets the part also where the input was not held low, are the model's choices
(notes/assumptions/14.md), and the line inputs stay as they stand (notes/assumptions/6.md). -/
def Obligations.ResetInputStopsAndResets : Prop :=
  ∀ s : State,
    exec .resetAsserted s = .next { s with
      resetLow := true
      circuits := mapAll s.circuits fun x => { x with sender := { x.sender with motor := false, sending := none } } } ∧
    (s.resetLow = true → ∀ i : Instr, i ≠ .resetAsserted → i ≠ .resetReleased →
      (∀ l, i ≠ .markToSpaceTransition l) → (∀ l, i ≠ .spaceToMarkTransition l) → exec i s = .next s) ∧
    (s.resetLow = true → ∀ l : LineNo,
      exec (.markToSpaceTransition l) s = .next (modLine s l fun x => { x with input := .spacing }) ∧
      exec (.spaceToMarkTransition l) s = .next (modLine s l fun x => { x with input := .marking })) ∧
    exec .resetReleased s = .next { State.reset with
      lines := tabulate 24 fun l => { State.reset.lines[l] with input := s.lines[l].input }
      pending := s.pending
      meanwhile := s.meanwhile }

/-- R195's table: the values on release of the reset input. -/
def Obligations.ResetValuesAreTheManuals : Prop :=
  (State.reset.lines[(0 : LineNo)].desc =
      { rates := setOf [6], width := .seven, stop := .one, bank := 0, agency := none, clearance := 3, silenceLimit := 0 } ∧
    (∀ l : LineNo, l ≠ 0 → State.reset.lines[l].desc =
      { rates := noneOf 8, width := .seven, stop := .one, bank := 0, agency := none, clearance := 0, silenceLimit := 0 }) ∧
    ∀ l : LineNo, State.reset.lines[l].framer.state = .hunt ∧ State.reset.lines[l].receiver.state = .idle ∧
      State.reset.lines[l].shift = .letters ∧ State.reset.lines[l].silence = none ∧
      State.reset.lines[l].counters = LineCounters.zero) ∧
  ((∀ n : Fin 128, State.reset.banks[(0 : BankNo)].inSeven[n] = .char n ∧
      State.reset.banks[(0 : BankNo)].out[n] = [{ code := n, req := .any }]) ∧
    State.reset.banks[(0 : BankNo)].kind = .seven ∧
    State.reset.banks[(0 : BankNo)].sub = some { code := 63, req := .any } ∧
    State.reset.banks[(0 : BankNo)].loaded = true ∧
    ∀ b : BankNo, b ≠ 0 → State.reset.banks[b] = Bank.emptied .five) ∧
  ((∀ n : SlotNo, State.reset.slots[n] = Slot.freed) ∧ State.reset.recency = List.finRange 40 ∧
    State.reset.takeWait = 120) ∧
  ((∀ e : EntryNo, State.reset.routes[e].inUse = false ∧ State.reset.routes[e].editLevel = 0) ∧
    members State.reset.defaultSet = [0] ∧ members State.reset.flashSet = []) ∧
  (State.reset.freeCount = 192 ∧
    State.reset.precedence.toList.map (fun r => (r.base, r.climb)) = [(240, 0), (176, 1), (112, 2), (48, 4), (0, 2)]) ∧
  (State.reset.circuits[(0 : CircuitNo)].desc =
      { rates := setOf [6], width := .seven, stop := .one, bank := 0, carriage := 72, motorDelay := 0, runOn := 10
        bulletinBreak := false } ∧
    (∀ c : CircuitNo, c ≠ 0 → State.reset.circuits[c].desc =
      { rates := noneOf 8, width := .seven, stop := .one, bank := 0, carriage := 69, motorDelay := 15, runOn := 30
        bulletinBreak := false }) ∧
    ∀ c : CircuitNo, State.reset.circuits[c].queue = [] ∧ State.reset.circuits[c].sender.state = .stopped ∧
      State.reset.circuits[c].sender.motor = false ∧ State.reset.circuits[c].sender.column = 0 ∧
      State.reset.circuits[c].sender.belief = .unknown ∧ State.reset.circuits[c].sender.carried = .nothing ∧
      State.reset.circuits[c].sender.chain = []) ∧
  (State.reset.mgmt.buffer = .free ∧ State.reset.mgmt.reports = [] ∧ State.reset.mgmt.reportCircuit = 0) ∧
  ((∀ k : Fin 12, State.reset.latch.entries[k] = LatchEntry.clear) ∧ State.reset.latch.alertMode = false) ∧
  State.reset.mode =
    { quiet := true, service := .full, windowFirst := 0, windowLast := 15, loadedFlag := .notRun, consistentFlag := .notRun }

/-! ### Agency lines -/

/-- R6, R9 to R11: what a transition, and a start sample that finds the line marking, do to the receiver; nothing else
changes but the level of the line input. That a transition moves the receiver whatever level the line input stood at is the
model's choice (notes/assumptions/21.md). -/
def Obligations.TransitionsMoveTheReceiver : Prop :=
  ∀ (s : State) (l : LineNo), s.resetLow = false →
    exec (.markToSpaceTransition l) s = .next (modLine s l fun x => { x with
      input := .spacing
      receiver := match x.receiver.state with
        | .idle => if lineInService x then { x.receiver with state := .start } else x.receiver
        | .brk => { x.receiver with markingInterval := none }
        | _ => x.receiver }) ∧
    exec (.spaceToMarkTransition l) s = .next (modLine s l fun x => { x with
      input := .marking
      receiver := match x.receiver.state with
        | .hold => { state := .idle, breakWatch := none, markingInterval := none }
        | .brk => { x.receiver with
            markingInterval := some (2 * (1 + widthElements x.desc.width) + stopHalves x.desc.stop) }
        | _ => x.receiver }) ∧
    (s.lines[l].receiver.state = .start →
      exec (.falseStart l) s = .next (modLine s l fun x => { x with
        input := .marking, receiver := { state := .idle, breakWatch := none, markingInterval := none } }))

/-- R9, R10, R12: a character with its stop sample spacing. The line's shift state stays, the framing counter counts,
FRAMING occurs with the line, the silence timer is reloaded, and the receiver stands in HOLD, its break watch of one
character time running if every data sample was spacing. The framer is handed SUB: in HUNT it is stray with the slashes held,
in HEADER it is collected, in a body it is passed on as text, and in every state the store, the message and the framer are
as SUB leaves them. When a character can arrive is notes/assumptions/5.md. -/
def Obligations.FramingErrorIsCountedAndWatched : Prop :=
  ∀ (s : State) (l : LineNo) (v : BitVec 7), s.resetLow = false → canArrive s.lines[l] = true →
    ∃ u, exec (.characterArrives l v false) s = .next (atOnce u) ∧
      u.lines[l].receiver =
        { state := .hold
          breakWatch := if lineCode s.lines[l].desc.width v = 0 then
              some (2 * (1 + widthElements s.lines[l].desc.width) + stopHalves s.lines[l].desc.stop)
            else none
          markingInterval := none } ∧
      u.lines[l].input = .spacing ∧ u.lines[l].shift = s.lines[l].shift ∧ u.lines[l].desc = s.lines[l].desc ∧
      u.lines[l].counters.framing = min (s.lines[l].counters.framing + 1) 65535 ∧
      u.lines[l].silence = (if 0 < s.lines[l].desc.silenceLimit then some (s.lines[l].desc.silenceLimit * 10)
        else s.lines[l].silence) ∧
      Occurred .framing (.line l) s u ∧ LineOnly l s u ∧
      (∀ w, w = framerChar id s l houseSUB →
        u.lines[l].framer = w.lines[l].framer ∧ u.lines[l].counters.stray = w.lines[l].counters.stray ∧
          u.slots = w.slots ∧ u.recency = w.recency ∧ { u.mgmt with reports := w.mgmt.reports } = w.mgmt) ∧
      (s.lines[l].framer.state = .hunt → u.lines[l].framer = { s.lines[l].framer with held := 0 } ∧
        u.lines[l].counters.stray = min (s.lines[l].counters.stray + (s.lines[l].framer.held.val + 1)) 65535) ∧
      (s.lines[l].framer.state = .header → s.lines[l].framer.header.length < 64 →
        u.lines[l].framer = { s.lines[l].framer with header := s.lines[l].framer.header ++ [26] }) ∧
      (s.lines[l].framer.state = .copyBody ∨ s.lines[l].framer.state = .manageBody ∨
          s.lines[l].framer.state = .discard →
        u.lines[l].framer.state = s.lines[l].framer.state ∧ u.lines[l].framer.held = 0 ∧
          u.lines[l].framer.lineStart = false)

/-- R10 to R12, R33: the break watch's expiry takes the line into break, LINE_BREAK occurring with the line, and the marking
interval's expiry takes it out again. The message the break ends: a take being filled is stored cut; a management message
is dropped, with CUT as a report if there is room; otherwise nothing of the store or the buffer changes. The silence timer's
expiry stops the timer, and LINE_SILENT occurs with the line. What the framer's other fields stand at is
notes/assumptions/23.md, what a drop leaves of the message notes/assumptions/28.md. -/
def Obligations.BreaksAndSilenceAreReported : Prop :=
  (∀ (s : State) (l : LineNo), s.resetLow = false →
    (s.lines[l].receiver.state = .hold → s.lines[l].receiver.breakWatch ≠ none →
      ∃ u, exec (.breakWatchExpires l) s = .next (atOnce u) ∧
        u.lines[l] = { s.lines[l] with
          receiver := { state := .brk, breakWatch := none, markingInterval := none }
          framer := { Framer.reset with state := .broken }
          shift := .letters
          silence := none } ∧
        Occurred .lineBreak (.line l) s u ∧ LineOnly l s u ∧
        (∀ (n : SlotNo) (t : TakeNo) (k : Take), s.lines[l].framer.state = .copyBody →
          s.lines[l].framer.takeRef = some (n, t) → takeAt s n t = some k →
          StoredCut n t s.lines[l].framer k u ∧ u.recency = n :: s.recency.filter (fun m => m ≠ n)) ∧
        ((s.lines[l].framer.state = .manageBody ∨
            (s.lines[l].framer.state = .header ∧ s.lines[l].framer.kind = .management)) →
          Dropped u ∧ u.slots = s.slots ∧
          ∀ h : LineNo, s.mgmt.holder = some h → s.latch.alertMode = false → s.mgmt.reports.length < 8 →
            u.mgmt.reports = s.mgmt.reports ++ [shortReplyText s.mgmt.tag h "CUT"]) ∧
        ((s.lines[l].framer.state = .hunt ∨ s.lines[l].framer.state = .discard ∨ s.lines[l].framer.state = .broken ∨
            (s.lines[l].framer.state = .header ∧ s.lines[l].framer.kind = .copy)) →
          DeliveryOnly { s with lines := u.lines } u ∧ u.slots = s.slots)) ∧
    (s.lines[l].receiver.state = .brk → s.lines[l].receiver.markingInterval ≠ none →
      exec (.markingIntervalExpires l) s = .next (modLine s l fun x => { x with
        receiver := Receiver.reset
        framer := Framer.reset
        silence := if lineInService x ∧ 0 < x.desc.silenceLimit then some (x.desc.silenceLimit * 10) else x.silence }))) ∧
  (∀ (s : State) (l : LineNo), s.resetLow = false → s.lines[l].silence ≠ none →
    ∃ u, exec (.silenceTimerExpires l) s = .next (atOnce u) ∧
      u.lines = modAt s.lines l (fun x => { x with silence := none }) ∧ Occurred .lineSilent (.line l) s u ∧
      DeliveryOnly { s with lines := u.lines } u ∧ u.slots = s.slots ∧ u.freeCount = s.freeCount)

/-! ### Code banks -/

/-- R39, R40, R43: what a line code gives, and the shift state after it. A code that yields no house character changes the shift
state and reloads the silence timer, and the framer and the counters are as they were. -/
def Obligations.InboundConversionFollowsTheBank : Prop :=
  (∀ (b : Bank) (sh : Shift) (code : LineCode),
    (b.kind = .five → code.val < 32 →
      ∀ e : InEntry, (sh = .letters → e = b.inLetters[(Fin.ofNat 32 code.val : Fin 32)]) →
        (sh = .figures → e = b.inFigures[(Fin.ofNat 32 code.val : Fin 32)]) →
      convertIn b .five sh code = match e with
        | .char h => (some h, sh)
        | .drop => (none, sh)
        | .shiftLetters => (none, .letters)
        | .shiftFigures => (none, .figures)) ∧
    (b.kind = .seven → (∀ h, b.inSeven[code] = .char h → convertIn b .seven sh code = (some h, sh)) ∧
      (b.inSeven[code] = .drop → convertIn b .seven sh code = (none, sh))) ∧
    (b.kind = .seven → convertIn b .five sh code = (some houseSUB, sh)) ∧
    (b.kind = .five → convertIn b .seven sh code = (some houseSUB, sh))) ∧
  (∀ (s : State) (l : LineNo) (v : BitVec 7) (sh : Shift), arrives s l v none sh →
    exec (.characterArrives l v true) s = .next (atOnce (withLine s l sh s.lines[l].framer s.lines[l].counters)))

/-- R45, R46, R48: the codes of a house character, its shift insertion, and the circuit's own width. -/
def Obligations.OutboundConversionInsertsShifts : Prop :=
  ∀ (b : Bank) (w : Width) (blf : Belief) (h : House),
    (b.kind = .seven → convertOut b w blf h =
      ((if b.out[h] = [] then b.sub.toList else b.out[h]).map fun c => atWidth w c.code, blf)) ∧
    (b.kind = .five → convertOut b w blf h =
      ((insertShifts b blf (if b.out[h] = [] then b.sub.toList else b.out[h])).1.map (atWidth w),
        (insertShifts b blf (if b.out[h] = [] then b.sub.toList else b.out[h])).2)) ∧
    insertShifts b blf [] = ([], blf) ∧
    (∀ k cs, insertShifts b blf (⟨k, .any⟩ :: cs) =
      (k :: (insertShifts b blf cs).1, (insertShifts b blf cs).2)) ∧
    (∀ k cs, blf = .letters → insertShifts b blf (⟨k, .letters⟩ :: cs) =
      (k :: (insertShifts b .letters cs).1, (insertShifts b .letters cs).2)) ∧
    (∀ k cs, blf = .figures → insertShifts b blf (⟨k, .figures⟩ :: cs) =
      (k :: (insertShifts b .figures cs).1, (insertShifts b .figures cs).2)) ∧
    (∀ k cs x, blf ≠ .letters → b.lettersShift = some x → insertShifts b blf (⟨k, .letters⟩ :: cs) =
      (x :: k :: (insertShifts b .letters cs).1, (insertShifts b .letters cs).2)) ∧
    (∀ k cs x, blf ≠ .figures → b.figuresShift = some x → insertShifts b blf (⟨k, .figures⟩ :: cs) =
      (x :: k :: (insertShifts b .figures cs).1, (insertShifts b .figures cs).2)) ∧
    (∀ k cs, blf ≠ .letters → b.lettersShift = none → insertShifts b blf (⟨k, .letters⟩ :: cs) =
      (k :: (insertShifts b blf cs).1, (insertShifts b blf cs).2)) ∧
    (∀ k cs, blf ≠ .figures → b.figuresShift = none → insertShifts b blf (⟨k, .figures⟩ :: cs) =
      (k :: (insertShifts b blf cs).1, (insertShifts b blf cs).2)) ∧
    (∀ c : LineCode, atWidth .five c = Fin.ofNat 128 (c.val % 32) ∧ atWidth .seven c = c)

/-! ### The envelope framer -/

/-- R18, R19, R159, R160: in HUNT a character that completes no opening mark is held or counted as stray. An opening mark is taken:
a copy opening enters HEADER; a management opening takes a FREE buffer; where the buffer is held, the message is refused and
passed over, and BUSY is placed as a report if there is room. That HEADER begins with the line start cleared, and what the
other fields stand at there, is notes/assumptions/23.md. -/
def Obligations.HuntFindsOpeningMarks : Prop :=
  (∀ (s : State) (l : LineNo) (v : BitVec 7) (h : House) (sh : Shift), arrives s l v (some h) sh →
    s.lines[l].framer.state = .hunt →
    (h = houseSlash → s.lines[l].framer.held ≠ 2 →
      exec (.characterArrives l v true) s = .next (atOnce
        (withLine s l sh { s.lines[l].framer with held := s.lines[l].framer.held + 1 } s.lines[l].counters))) ∧
    (h = houseSlash → s.lines[l].framer.held = 2 →
      exec (.characterArrives l v true) s = .next (atOnce (withLine s l sh s.lines[l].framer
        { s.lines[l].counters with stray := min (s.lines[l].counters.stray + 1) 65535 }))) ∧
    (h ≠ houseSlash → ¬(s.lines[l].framer.held = 2 ∧ (h = ch 'C' ∨ h = ch 'M')) →
      exec (.characterArrives l v true) s = .next (atOnce (withLine s l sh { s.lines[l].framer with held := 0 }
        { s.lines[l].counters with
          stray := min (s.lines[l].counters.stray + (s.lines[l].framer.held.val + 1)) 65535 })))) ∧
  (∀ (s : State) (l : LineNo) (v : BitVec 7) (h : House) (sh : Shift), arrives s l v (some h) sh →
    s.lines[l].framer.state = .hunt → s.lines[l].framer.held = 2 →
    ∀ k, k = { s.lines[l].counters with messagesTaken := min (s.lines[l].counters.messagesTaken + 1) 65535 } →
    (h = ch 'C' →
      exec (.characterArrives l v true) s = .next (atOnce (withLine s l sh (Framer.inHeader .copy) k))) ∧
    (h = ch 'M' → s.mgmt.buffer = .free →
      exec (.characterArrives l v true) s = .next (atOnce { withLine s l sh (Framer.inHeader .management) k with
        mgmt := { s.mgmt.released with buffer := .opened, holder := some l } })) ∧
    (h = ch 'M' → s.mgmt.buffer ≠ .free → s.mgmt.reports.length < 8 →
      ∃ u, exec (.characterArrives l v true) s = .next (atOnce u) ∧
        u.lines[l] = afterCharacter sh
          { s.lines[l].framer with
            state := .discard, held := 0, lineStart := true, header := [], takeRef := none }
          { k with refused := min (s.lines[l].counters.refused + 1) 65535 } s.lines[l] ∧
        (∀ m : LineNo, m ≠ l → u.lines[m] = s.lines[m]) ∧
        ReportPlaced (shortReplyText none l "BUSY") s
          { u with lines := s.lines }))

/-- R20, R23, R25: in HEADER a function is dropped, another character is collected, and a 65th ends the message with a header
fault: HEADER_FAULT occurs with the line, a copy message is counted, a management message gives the buffer up, and the
framer passes the rest over, not at a line start. -/
def Obligations.HeaderCharactersAreCollected : Prop :=
  ∀ (s : State) (l : LineNo) (v : BitVec 7) (h : House) (sh : Shift), arrives s l v (some h) sh →
    s.lines[l].framer.state = .header → h ≠ houseNL →
    (isFunction h = true →
      exec (.characterArrives l v true) s = .next (atOnce (withLine s l sh s.lines[l].framer s.lines[l].counters))) ∧
    (isFunction h = false → s.lines[l].framer.header.length < 64 →
      exec (.characterArrives l v true) s = .next (atOnce (withLine s l sh
        { s.lines[l].framer with header := s.lines[l].framer.header ++ [h] } s.lines[l].counters))) ∧
    (isFunction h = false → 64 ≤ s.lines[l].framer.header.length →
      ∃ u, exec (.characterArrives l v true) s = .next (atOnce u) ∧
        u.lines[l] = afterCharacter sh
          { s.lines[l].framer with state := .discard, held := 0, lineStart := false, takeRef := none }
          (if s.lines[l].framer.kind = .copy then
            { s.lines[l].counters with headerFaults := min (s.lines[l].counters.headerFaults + 1) 65535 }
          else s.lines[l].counters) s.lines[l] ∧
        (s.lines[l].framer.kind = .management → u.mgmt.buffer = .free ∧ u.mgmt.holder = none) ∧
        Occurred .headerFault (.line l) s u ∧ LineOnly l s u)

/-- R24, R65 to R67: a copy header that reads without fault. Its key a miss, it opens its take in the slot allocated for it; on a
hit without a fault on an absent take, in the story's slot; the framer enters COPY-BODY at a line start. A full store, a
take-order fault or a duplicate turns it away: the framer passes the message over from a line start, and no story is opened
or changed. -/
def Obligations.CopyHeadersAreAnswered : Prop :=
  (∀ (s : State) (l : LineNo) (v : BitVec 7) (sh : Shift) (d : CopyHeader), arrives s l v (some houseNL) sh →
    s.lines[l].framer.state = .header → s.lines[l].framer.kind = .copy →
    readCopyHeader s.lines[l].desc.agency s.lines[l].framer.header = some d →
    ∀ (n : SlotNo) (k : Take), k =
      { state := .filling, fillingLine := some l, cls := d.cls, current := ⟨[], [], false⟩, replacement := none
        superseded := none, releasedFlag := false, subCount := if d.sub then 1 else 0, late := false
        waitTimer := none } →
    ∀ f, f = { s.lines[l].framer with state := .copyBody, held := 0, lineStart := true, takeRef := some (n, d.take) } →
    (lookup s d.key = none → slotToAllocate s = some n →
      exec (.characterArrives l v true) s = .next (atOnce { withLine s l sh f s.lines[l].counters with
        slots := put s.slots n
          { Slot.freed with
            state := .occupied, key := some d.key, category := some d.category, slug := d.slug
            lastTake := if d.last then some d.take else none
            takes := put (Vector.replicate 12 none) d.take (some k) }
        recency := n :: s.recency.filter (fun m => m ≠ n) })) ∧
    (lookup s d.key = some n → takeOrderFault s.slots[n] d = false → takeAt s n d.take = none →
      (presentTakes s.slots[n]).isEmpty = false →
      exec (.characterArrives l v true) s = .next (atOnce { withLine s l sh f s.lines[l].counters with
        slots := modAt s.slots n fun x =>
          { x with
            lastTake := if d.last then some d.take else x.lastTake
            takes := put x.takes d.take (some k) } }))) ∧
  (∀ (s : State) (l : LineNo) (v : BitVec 7) (sh : Shift) (d : CopyHeader), arrives s l v (some houseNL) sh →
    s.lines[l].framer.state = .header → s.lines[l].framer.kind = .copy →
    readCopyHeader s.lines[l].desc.agency s.lines[l].framer.header = some d →
    ∀ f, f = { s.lines[l].framer with state := .discard, held := 0, lineStart := true, takeRef := none } →
    (lookup s d.key = none → slotToAllocate s = none →
      ∃ u, exec (.characterArrives l v true) s = .next (atOnce u) ∧
        u.lines[l] = afterCharacter sh f
          { s.lines[l].counters with refused := min (s.lines[l].counters.refused + 1) 65535 } s.lines[l] ∧
        Occurred .storeFull (.lineKey l d.key) s u ∧ LineOnly l s u ∧ u.slots = s.slots ∧ u.recency = s.recency) ∧
    (∀ n, lookup s d.key = some n → takeOrderFault s.slots[n] d = true →
      ∃ u, exec (.characterArrives l v true) s = .next (atOnce u) ∧
        u.lines[l] = afterCharacter sh f
          { s.lines[l].counters with headerFaults := min (s.lines[l].counters.headerFaults + 1) 65535 } s.lines[l] ∧
        Occurred .headerFault (.line l) s u ∧ LineOnly l s u ∧ u.slots = s.slots ∧ u.recency = s.recency) ∧
    (∀ n k, lookup s d.key = some n → takeOrderFault s.slots[n] d = false → takeAt s n d.take = some k →
      (d.sub = false ∨ k.state = .filling ∨ k.state = .cutFilling) →
      exec (.characterArrives l v true) s = .next (atOnce (withLine s l sh f
        { s.lines[l].counters with duplicates := min (s.lines[l].counters.duplicates + 1) 65535 }))))

/-- R26 to R28, R32, R69, R70: characters in a body. A "/" at a line start, or after one held, is held, and nothing is passed on
for it. Another character is text, with the slashes held before it; only a character that completes no mark clears them.
In DISCARD text is dropped. Handed to a take being filled as a first arrival, it stands after the characters already there, in a
new block from the 65th of a block on; where no block is free the version is cut, with what had room, and TAKE_CUT occurs
with the key and the take. A take that is CUT-FILLING discards it. -/
def Obligations.BodyCharactersAreWritten : Prop :=
  ∀ (s : State) (l : LineNo) (v : BitVec 7) (h : House) (sh : Shift), arrives s l v (some h) sh →
    ∀ g, g = s.lines[l].framer → (g.state = .copyBody ∨ g.state = .manageBody ∨ g.state = .discard) →
    (h = houseSlash → g.held = 0 → g.lineStart = true →
      exec (.characterArrives l v true) s = .next (atOnce (withLine s l sh { g with held := 1 } s.lines[l].counters))) ∧
    (h = houseSlash → g.held = 1 →
      exec (.characterArrives l v true) s = .next (atOnce (withLine s l sh { g with held := 2 } s.lines[l].counters))) ∧
    (IsText g h → ∀ a, a = withLine s l sh (afterText g h) s.lines[l].counters →
      (g.state = .discard → exec (.characterArrives l v true) s = .next (atOnce a)) ∧
      ∀ (n : SlotNo) (t : TakeNo) (k : Take), g.state = .copyBody → g.takeRef = some (n, t) → takeAt s n t = some k →
        (k.state = .cutFilling → exec (.characterArrives l v true) s = .next (atOnce a)) ∧
        (k.state = .filling → k.replacement = none →
          ∀ (w : Text) (used : Nat), w = passedText g h → used = k.current.text.length % 64 →
          (0 < used → used + w.length ≤ 64 →
            exec (.characterArrives l v true) s = .next (atOnce { a with
              slots := modAt s.slots n fun x =>
                { x with
                  takes := put x.takes t (some { k with current := { k.current with text := k.current.text ++ w } }) } })) ∧
          (∀ b, used = 0 ∨ 64 < used + w.length → lowestFree s.slots[n].blockMap = some b →
            exec (.characterArrives l v true) s = .next (atOnce { a with
              slots := modAt s.slots n fun x =>
                { x with
                  takes := put x.takes t (some { k with
                    current := { k.current with blocks := k.current.blocks ++ [b], text := k.current.text ++ w } })
                  blockMap := put x.blockMap b true } })) ∧
          (∀ y, used = 0 ∨ 64 < used + w.length → lowestFree s.slots[n].blockMap = none → s.slots[n].key = some y →
            ∃ u, exec (.characterArrives l v true) s = .next (atOnce u) ∧
              u.slots = modAt s.slots n (fun x =>
                { x with
                  takes := put x.takes t (some { k with
                    state := .cutFilling
                    current := { k.current with
                      text := k.current.text ++ w.take ((64 - used) % 64), cut := true } }) }) ∧
              u.lines[l] = afterCharacter sh (afterText g h) s.lines[l].counters s.lines[l] ∧
              Occurred .takeCut (.keyTake y t) s u ∧ LineOnly l s u)))

/-- R29, R71 to R73, R75, R77, R113: a closing mark at the end of a first arrival. Its slot moves to the front. A take whose
lower numbers are cleared is released; another waits, its timer loaded with the take wait limit. A release, where no other
take waits and nothing comes in its middle, makes one record of kind NEW for each circuit of the routed set; a take whose
number was passed is released late, with records of kind LATE, and leaves the passed set. The framer returns to HUNT.
What the framer's other fields stand at is notes/assumptions/23.md. -/
def Obligations.ClosingMarksStoreTakes : Prop :=
  ∀ (s : State) (l : LineNo) (v : BitVec 7) (sh : Shift) (n : SlotNo) (t : TakeNo) (k : Take),
    arrives s l v (some (ch 'E')) sh → s.lines[l].framer.state = .copyBody →
    s.lines[l].framer.takeRef = some (n, t) → s.lines[l].framer.held = 2 →
    takeAt s n t = some k → k.replacement = none →
    (s.slots[n].passed[t] = false → (∀ j : TakeNo, j < t → cleared s.slots[n] j = true) →
      ∃ u k', exec (.characterArrives l v true) s = .next (atOnce u) ∧
        u.lines[l] = afterCharacter sh Framer.reset s.lines[l].counters s.lines[l] ∧
        u.recency = n :: s.recency.filter (fun m => m ≠ n) ∧ takeAt u n t = some k' ∧
        k'.state = .released ∧ k'.releasedFlag = true ∧ k'.fillingLine = none ∧ k'.waitTimer = none ∧
        k'.current = k.current ∧ LineOnly l s u ∧ ∀ m : SlotNo, m ≠ n → slotCore u.slots[m] = slotCore s.slots[m]) ∧
    (s.slots[n].passed[t] = false → (∃ j : TakeNo, j < t ∧ cleared s.slots[n] j = false) → s.takeWait ≠ 0 →
      exec (.characterArrives l v true) s = .next (atOnce { withLine s l sh Framer.reset s.lines[l].counters with
        slots := modAt s.slots n fun x =>
          { x with
            takes := put x.takes t (some { k with
              state := .waiting, fillingLine := none, waitTimer := some s.takeWait }) }
        recency := n :: s.recency.filter (fun m => m ≠ n) })) ∧
    (∀ (kind : RecKind) (y : Key) (g : Category) (cs : List CircuitNo) (r : Rec),
      (s.slots[n].passed[t] = true ∧ kind = .late) ∨ (s.slots[n].passed[t] = false ∧ kind = .new ∧
        ∀ j : TakeNo, j < t → cleared s.slots[n] j = true) →
      s.meanwhile = [] → IdleCarriesNothing s → (∀ j : TakeNo, isWaiting s.slots[n] j = false) →
      s.slots[n].key = some y → s.slots[n].category = some g → cs = routedSet s g y.agency k.cls →
      cs.length ≤ s.freeCount →
      r = { ref := some { slot := n, take := t, version := .current }, cls := k.cls, kind := kind, gap := [], age := 0
            resume := none, composed := none } →
      ∃ u, exec (.characterArrives l v true) s = .next (atOnce u) ∧
        u.lines[l] = afterCharacter sh Framer.reset s.lines[l].counters s.lines[l] ∧
        u.freeCount = s.freeCount - cs.length ∧
        u.slots = modAt s.slots n (fun x =>
          { x with
            passed := put x.passed t false
            takes := put x.takes t (some { k with
              state := .released, fillingLine := none, waitTimer := none, releasedFlag := true
              late := k.late || decide (kind = .late) })
            pendingCount := x.pendingCount + cs.length }) ∧
        (∀ c ∈ cs, recordsOn (fun x => decide (x = r)) u.circuits[c] =
          recordsOn (fun x => decide (x = r)) s.circuits[c] + 1) ∧
        ∀ c : CircuitNo, c ∉ cs → u.circuits[c] = s.circuits[c])

/-- R31, R32, R159, R160, R163: an opening mark at the start of a body line. In DISCARD the new message begins at once. In
COPY-BODY the take ends cut and is stored. In MANAGE-BODY the message is dropped, the buffer released and CUT placed as a
report if there is room, and a management opening then asks for the buffer afresh: with nothing coming between, the framer
holds it again; where another line's management opening comes between the release and the request, that line holds the
buffer, and this line's message is answered BUSY and passed over. That HEADER begins with the line start cleared is
notes/assumptions/23.md; that a drop makes the level and the tag absent is notes/assumptions/28.md. -/
def Obligations.OpeningMarksInBodiesEndMessages : Prop :=
  ∀ (s : State) (l : LineNo) (v : BitVec 7) (h : House) (sh : Shift), arrives s l v (some h) sh →
    s.lines[l].framer.held = 2 →
    ∀ k, k = { s.lines[l].counters with messagesTaken := min (s.lines[l].counters.messagesTaken + 1) 65535 } →
    (s.lines[l].framer.state = .discard →
      (h = ch 'C' → exec (.characterArrives l v true) s = .next (atOnce (withLine s l sh (Framer.inHeader .copy) k))) ∧
      (h = ch 'M' → s.mgmt.buffer = .free →
        exec (.characterArrives l v true) s = .next (atOnce { withLine s l sh (Framer.inHeader .management) k with
          mgmt := { s.mgmt.released with buffer := .opened, holder := some l } }))) ∧
    (∀ (n : SlotNo) (t : TakeNo) (x : Take), s.lines[l].framer.state = .copyBody → h = ch 'C' →
      s.lines[l].framer.takeRef = some (n, t) → takeAt s n t = some x → x.replacement = none →
      ∃ u x', exec (.characterArrives l v true) s = .next (atOnce u) ∧
        u.lines[l] = afterCharacter sh (Framer.inHeader .copy) k s.lines[l] ∧ takeAt u n t = some x' ∧
        (x'.state = .released ∨ x'.state = .waiting) ∧ x'.fillingLine = none ∧ x'.current.cut = true ∧
        x'.current.text = x.current.text ∧ u.recency = n :: s.recency.filter (fun m => m ≠ n) ∧ LineOnly l s u) ∧
    (∀ b : LineNo, s.lines[l].framer.state = .manageBody → s.mgmt.holder = some b → s.mgmt.reports.length < 8 →
      ∀ cut, cut = shortReplyText s.mgmt.tag b "CUT" →
      (h = ch 'C' → ∃ u, exec (.characterArrives l v true) s = .next (atOnce u) ∧
        u.lines = modAt s.lines l (afterCharacter sh (Framer.inHeader .copy) k) ∧
        u.mgmt = { s.mgmt.released with reports := s.mgmt.reports ++ [cut] } ∧
        ReportPlaced cut s { u with lines := s.lines, mgmt := { s.mgmt with reports := s.mgmt.reports ++ [cut] } }) ∧
      (h = ch 'M' → s.meanwhile = [] → ∃ u, exec (.characterArrives l v true) s = .next (atOnce u) ∧
        u.lines = modAt s.lines l (afterCharacter sh (Framer.inHeader .management) k) ∧
        u.mgmt = { s.mgmt.released with buffer := .opened, holder := some l, reports := s.mgmt.reports ++ [cut] } ∧
        ReportPlaced cut s { u with lines := s.lines, mgmt := { s.mgmt with reports := s.mgmt.reports ++ [cut] } }) ∧
      (∀ (m : LineNo) (w : BitVec 7) (sh' : Shift), h = ch 'M' → m ≠ l → s.meanwhile = [[.characterArrives m w true]] →
        arrives s m w (some (ch 'M')) sh' → s.lines[m].framer.state = .hunt → s.lines[m].framer.held = 2 →
        s.mgmt.reports.length < 7 →
        ∀ j, j = { s.lines[m].counters with messagesTaken := min (s.lines[m].counters.messagesTaken + 1) 65535 } →
        ∃ u, exec (.characterArrives l v true) s = .next (atOnce u) ∧ u.meanwhile = [] ∧
          u.mgmt = { s.mgmt.released with
            buffer := .opened
            holder := some m
            reports := s.mgmt.reports ++ [cut, shortReplyText none l "BUSY"] } ∧
          u.lines[m] = afterCharacter sh' (Framer.inHeader .management) j s.lines[m] ∧
          u.lines[l] = afterCharacter sh
            { s.lines[l].framer with
              state := .discard, held := 0, lineStart := true, header := [], takeRef := none }
            { k with refused := min (s.lines[l].counters.refused + 1) 65535 } s.lines[l] ∧
          ∀ i : LineNo, i ≠ l → i ≠ m → u.lines[i] = s.lines[i]))

/-- R26, R27, R68, R69, R71, R73, R76, R78 to R81: a substitute. Its header over a stored take opens a replacement version; the characters
of its body are written into it; its closing mark replaces the text. Readers of an older superseded version are cut or
removed, carried and suspended readers of the current version read it as the superseded one, counted as its readers, or its
blocks are freed if there are none; queued records are rewritten in place; and the substitute is released again with records
of kind SUB for the circuits of the routed set that hold no rewritten record, or passes the gate. What the framer's other
fields stand at is notes/assumptions/23.md. -/
def Obligations.SubstitutesReplaceTheText : Prop :=
  (∀ (s : State) (l : LineNo) (v : BitVec 7) (sh : Shift) (d : CopyHeader) (n : SlotNo) (k : Take),
    arrives s l v (some houseNL) sh → s.lines[l].framer.state = .header → s.lines[l].framer.kind = .copy →
    readCopyHeader s.lines[l].desc.agency s.lines[l].framer.header = some d → d.sub = true →
    lookup s d.key = some n → takeOrderFault s.slots[n] d = false → takeAt s n d.take = some k →
    (k.state = .waiting ∨ k.state = .released) →
    exec (.characterArrives l v true) s = .next (atOnce { withLine s l sh
        { s.lines[l].framer with state := .copyBody, held := 0, lineStart := true, takeRef := some (n, d.take) }
        s.lines[l].counters with
      slots := modAt s.slots n fun x =>
        { x with
          lastTake := if d.last then some d.take else x.lastTake
          takes := put x.takes d.take (some { k with
            state := .filling, fillingLine := some l, replacement := some (⟨[], [], false⟩, d.cls)
            waitTimer := none }) } })) ∧
  (∀ (s : State) (l : LineNo) (v : BitVec 7) (h : House) (sh : Shift) (n : SlotNo) (t : TakeNo) (k : Take)
      (w : Version) (cl : Machine.Class),
    arrives s l v (some h) sh → s.lines[l].framer.state = .copyBody → s.lines[l].framer.takeRef = some (n, t) →
    IsText s.lines[l].framer h → takeAt s n t = some k → k.state = .filling → k.replacement = some (w, cl) →
    ∀ (z : Text) (used : Nat), z = passedText s.lines[l].framer h → used = w.text.length % 64 →
    ∀ f, f = afterText s.lines[l].framer h →
    (0 < used → used + z.length ≤ 64 →
      exec (.characterArrives l v true) s = .next (atOnce { withLine s l sh f s.lines[l].counters with
        slots := modAt s.slots n fun x =>
          { x with
            takes := put x.takes t (some { k with replacement := some ({ w with text := w.text ++ z }, cl) }) } })) ∧
    (∀ b, used = 0 ∨ 64 < used + z.length → lowestFree s.slots[n].blockMap = some b →
      exec (.characterArrives l v true) s = .next (atOnce { withLine s l sh f s.lines[l].counters with
        slots := modAt s.slots n fun x =>
          { x with
            takes := put x.takes t (some { k with
              replacement := some ({ w with blocks := w.blocks ++ [b], text := w.text ++ z }, cl) })
            blockMap := put x.blockMap b true } }))) ∧
  ∀ (s : State) (l : LineNo) (v : BitVec 7) (sh : Shift) (n : SlotNo) (t : TakeNo) (k : Take) (w : Version)
      (cl : Machine.Class),
    arrives s l v (some (ch 'E')) sh → s.lines[l].framer.state = .copyBody →
    s.lines[l].framer.takeRef = some (n, t) → s.lines[l].framer.held = 2 → takeAt s n t = some k →
    k.replacement = some (w, cl) →
    ∀ a, a = afterSubstitute (withLine s l sh Framer.reset s.lines[l].counters) n t k w cl →
    (∀ (y : Key) (g : Category) (cs : List CircuitNo) (r : Rec), k.releasedFlag = true → s.meanwhile = [] →
      IdleCarriesNothing s → s.slots[n].key = some y → s.slots[n].category = some g →
      cs = (routedSet s g y.agency cl).filter (fun c => !(a.circuits[c].queue.any (ofTake n t))) →
      cs.length ≤ a.freeCount →
      r = { ref := some { slot := n, take := t, version := .current }, cls := cl, kind := .sub, gap := [], age := 0
            resume := none, composed := none } →
      ∃ u, exec (.characterArrives l v true) s = .next (atOnce u) ∧ u.lines = a.lines ∧ u.recency = a.recency ∧
        u.freeCount = a.freeCount - cs.length ∧
        u.slots = modAt a.slots n (fun x =>
          { x with
            takes := modAt x.takes t (Option.map fun k => { k with state := .released })
            pendingCount := x.pendingCount + cs.length }) ∧
        (∀ c ∈ cs, recordsOn (fun x => decide (x = r)) u.circuits[c] =
          recordsOn (fun x => decide (x = r)) a.circuits[c] + 1) ∧
        ∀ c : CircuitNo, c ∉ cs → u.circuits[c] = a.circuits[c]) ∧
    (k.releasedFlag = false → s.slots[n].passed[t] = false → (∃ j : TakeNo, j < t ∧ cleared s.slots[n] j = false) →
      s.takeWait ≠ 0 →
      exec (.characterArrives l v true) s = .next (atOnce { a with
        slots := modAt a.slots n fun x =>
          { x with
            takes := modAt x.takes t (Option.map fun k => { k with
              state := .waiting, waitTimer := some s.takeWait }) } }))

/-- R25 to R27, R30, R161, R162, R164, R165: a management message. Its header, read without fault, is recorded and the buffer enters
COLLECTING; a faulty one gives the buffer up, HEADER_FAULT occurring with the line. In the body the characters of a request
line, slashes held before one among them, are collected up to 96 and the lines up to 16, blank ones passed over, and beyond either the message is too long. At its
closing mark a message that is too long is answered TOO-LONG; one from a line of clearance 0 is refused STANDING; another
is executed at the smaller of the holding line's clearance and the header level. The framer returns to HUNT, its other
fields as notes/assumptions/23.md says; that the level and the tag are then absent is notes/assumptions/28.md. -/
def Obligations.ManagementMessagesAreReadAndClosed : Prop :=
  (∀ (s : State) (l : LineNo) (v : BitVec 7) (sh : Shift), arrives s l v (some houseNL) sh →
    s.lines[l].framer.state = .header → s.lines[l].framer.kind = .management →
    (∀ lv tag, readManagementHeader s.lines[l].framer.header = some (lv, tag) →
      exec (.characterArrives l v true) s = .next (atOnce { withLine s l sh
          { s.lines[l].framer with state := .manageBody, held := 0, lineStart := true } s.lines[l].counters with
        mgmt := { s.mgmt with buffer := .collecting, level := some lv, tag := tag } })) ∧
    (readManagementHeader s.lines[l].framer.header = none →
      ∃ u, exec (.characterArrives l v true) s = .next (atOnce u) ∧
        u.lines[l] = afterCharacter sh
          { s.lines[l].framer with state := .discard, held := 0, lineStart := true, takeRef := none }
          s.lines[l].counters s.lines[l] ∧
        u.mgmt.buffer = .free ∧ u.mgmt.holder = none ∧ Occurred .headerFault (.line l) s u ∧ LineOnly l s u)) ∧
  (∀ (s : State) (l : LineNo) (v : BitVec 7) (h : House) (sh : Shift), arrives s l v (some h) sh →
    s.lines[l].framer.state = .manageBody → IsText s.lines[l].framer h →
    ∀ q m : Mgmt,
      ((s.lines[l].framer.held = 0 ∧ q = s.mgmt) ∨ (s.mgmt.tooLong = true ∧ q = s.mgmt) ∨
        (s.mgmt.tooLong = false ∧ s.mgmt.collecting.length + s.lines[l].framer.held.val ≤ 96 ∧
          q = { s.mgmt with collecting := s.mgmt.collecting ++ heldSlashes s.lines[l].framer }) ∨
        (s.mgmt.tooLong = false ∧ s.mgmt.collecting.length ≤ 96 ∧
          96 < s.mgmt.collecting.length + s.lines[l].framer.held.val ∧
          q = { s.mgmt with
            collecting := (s.mgmt.collecting ++ heldSlashes s.lines[l].framer).take 96, tooLong := true })) →
      ((isFunction h = true ∧ m = q) ∨
        (isFunction h = false ∧ h ≠ houseNL ∧ q.tooLong = true ∧ m = q) ∨
        (isFunction h = false ∧ h ≠ houseNL ∧ q.tooLong = false ∧ q.collecting.length < 96 ∧
          m = { q with collecting := q.collecting ++ [h] }) ∨
        (isFunction h = false ∧ h ≠ houseNL ∧ q.tooLong = false ∧ 96 ≤ q.collecting.length ∧
          m = { q with tooLong := true }) ∨
        (h = houseNL ∧ (q.tooLong = true ∨ ∀ x ∈ q.collecting, x = houseSpace) ∧ m = { q with collecting := [] }) ∨
        (h = houseNL ∧ q.tooLong = false ∧ (∃ x ∈ q.collecting, x ≠ houseSpace) ∧ q.lines.length < 16 ∧
          m = { q with lines := q.lines ++ [q.collecting], collecting := [] }) ∨
        (h = houseNL ∧ q.tooLong = false ∧ (∃ x ∈ q.collecting, x ≠ houseSpace) ∧ 16 ≤ q.lines.length ∧
          m = { q with collecting := [], tooLong := true })) →
      exec (.characterArrives l v true) s = .next (atOnce { withLine s l sh (afterText s.lines[l].framer h)
          s.lines[l].counters with
        mgmt := m })) ∧
  ∀ (s : State) (l : LineNo) (v : BitVec 7) (sh : Shift) (b : LineNo) (clr : Level), arrives s l v (some (ch 'E')) sh →
    s.lines[l].framer.state = .manageBody → s.lines[l].framer.held = 2 → s.mgmt.holder = some b →
    clr = s.lines[b].desc.clearance →
    ∀ closed, closed = withLine s l sh Framer.reset s.lines[l].counters →
    (s.mgmt.tooLong = true → s.mgmt.reports.length < 8 →
      ∃ u, exec (.characterArrives l v true) s = .next (atOnce u) ∧ u.lines = closed.lines ∧
        u.mgmt = { s.mgmt.released with reports := s.mgmt.reports ++ [shortReplyText s.mgmt.tag b "TOO-LONG"] } ∧
        ∀ m, m = { s.mgmt with buffer := .executing } →
        ReportPlaced (shortReplyText s.mgmt.tag b "TOO-LONG") { closed with mgmt := m }
          { u with mgmt := { m with reports := s.mgmt.reports ++ [shortReplyText s.mgmt.tag b "TOO-LONG"] } }) ∧
    (s.mgmt.tooLong = false → clr = 0 →
      ∃ u, exec (.characterArrives l v true) s = .next (atOnce u) ∧ u.lines = closed.lines ∧ u.mgmt.buffer = .free ∧
        u.mgmt.holder = none ∧ u.mgmt.lines = [] ∧ Occurred .standingRefused (.line b) s u ∧
        (s.latch.alertMode = false → s.mgmt.reports.length < 8 → u.mgmt.reports = s.mgmt.reports ++
          [txt "//R" ++ (match s.mgmt.tag with
            | some g => houseSpace :: g
            | none => []) ++ txt " L" ++ decimal b ++ [houseNL] ++ txt "REFUSED STANDING" ++ [houseNL] ++ txt "//E" ++
              [houseNL]])) ∧
    (∀ lv : Level, s.mgmt.tooLong = false → clr ≠ 0 → s.mgmt.level = some lv →
      exec (.characterArrives l v true) s = .next (atOnce { closed with
        mgmt := { s.mgmt with
          buffer := .executing
          effective := some (if clr ≤ lv then clr else lv)
          reply := some
            { text := txt "//R" ++ (match s.mgmt.tag with
                | some g => houseSpace :: g
                | none => []) ++ txt " L" ++ decimal b ++ [houseNL]
              omitted := 0 } } }))

/-! ### Executing requests -/

/-- R166, R167 step 1: a request is executed only as the next request line of the message being executed; at any other moment
the command leaves the part as it was, which is the model's choice (notes/assumptions/2.md). A line whose verb is not in the
catalogue is refused FORM, whatever the message's level. -/
def Obligations.RequestsRunInTheirTurn : Prop :=
  (∀ (i : Instr) (v : Text) (ops : List Text) (s : State), i.request? = some (v, ops) → inTurn s v ops = false →
    exec i s = .next s) ∧
  ∀ (v : Text) (ops : List Text) (s : State), inTurn s v ops = true → v ∉ catalogue →
    exec (.unknownRequest v ops) s = .next (replied (popLine s) v (.refused .form) [])

/-- R98, R167 step 2: a request above the effective level is refused STANDING, and STANDING_REFUSED occurs with the holding
line. Nothing else changes but the report buffer and its circuit, for an alert. -/
def Obligations.RequestsAboveTheLevelAreRefused : Prop :=
  ∀ (i : Instr) (s : State) (v : Text) (ops : List Text) (n : Nat) (l : LineNo), i.request? = some (v, ops) →
    requiredLevel i s = some n → inTurn s v ops = true → ¬ hasStanding s n → s.mgmt.holder = some l →
    ∃ u, exec i s = .next (replied (atOnce u) v (.refused .standing) []) ∧
      Occurred .standingRefused (.line l) s u ∧ DeliveryOnly (popLine s) u ∧ u.slots = s.slots ∧
      u.freeCount = s.freeCount ∧ ∀ c : CircuitNo, c ≠ s.mgmt.reportCircuit → u.circuits[c] = s.circuits[c]

/-- R168: a request with standing is answered, and one answered REFUSED or KEPT changes nothing; a refusal has no results. -/
def Obligations.RefusedAndKeptRequestsChangeNothing : Prop :=
  ∀ (i : Instr) (s : State) (v : Text) (ops : List Text) (n : Nat), i.request? = some (v, ops) →
    requiredLevel i s = some n → inTurn s v ops = true → hasStanding s n →
    ∃ u st results, exec i s = .next (replied u v st results) ∧ (st ≠ .done → u = popLine s) ∧
      ∀ r, st = .refused r → results = []

/-! ### Lines and banks -/

/-- R4, R5, R34: LINE. The first failure decides the answer, a missing or extra operand being a failure of form. An accepted
LINE sets the line afresh, and a message its framer was in the middle of ends as at a break: a take being filled is
stored cut, and a management message is dropped, the buffer released and CUT placed as a report if there is room. That the
results leave out the line's number is notes/assumptions/10.md; the framer's other fields are notes/assumptions/23.md. -/
def Obligations.LineSetsTheLine : Prop :=
  (∀ (s : State) (ops : List Text), serves s "LINE" 3 ops → ops.length ≠ 8 → RefusedWith (.line ops) s "LINE" .form) ∧
  (∀ (s : State) (ln rs wd sp bk ag cl si : Text), serves s "LINE" 3 [ln, rs, wd, sp, bk, ag, cl, si] →
    ∀ i, i = Instr.line [ln, rs, wd, sp, bk, ag, cl, si] →
    (lineForm ln = none ∨ number? cl = none ∨ number? si = none → RefusedWith i s "LINE" .form) ∧
    (∀ n c m, lineForm ln = some n → number? cl = some c → number? si = some m →
      (24 ≤ n → RefusedWith i s "LINE" .range) ∧
      ∀ l : LineNo, l.val = n →
        (rateSetForm rs = none ∨ widthForm wd = none ∨ stopForm sp = none ∨ bankInRange bk = none ∨
          agencyForm ag = none → RefusedWith i s "LINE" .form) ∧
        ∀ r w p b a, rateSetForm rs = some r → widthForm wd = some w → stopForm sp = some p → bankInRange bk = some b →
          agencyForm ag = some a →
          (4 ≤ c → RefusedWith i s "LINE" .range) ∧
          ∀ v : Level, v.val = c →
            (kindMatches w s.banks[b].kind = false → RefusedWith i s "LINE" .form) ∧
            (kindMatches w s.banks[b].kind = true →
              ∀ d, d = { rates := r, width := w, stop := p, bank := b, agency := a, clearance := v
                         silenceLimit := min m 255 } →
              ∃ u, DoneWith i s "LINE"
                  [rateSetTok r, widthTok w, stopTok p, bankTok b, anyAgencyTok a, decimal v, decimal (min m 255)]
                  (atOnce u) ∧
                LineOnly l (modLine (popLine s) l fun x => { x with desc := d, outOfService := false }) u ∧
                u.lines[l] =
                  { input := s.lines[l].input, desc := d, outOfService := false, receiver := Receiver.reset
                    shift := .letters
                    silence := if r ≠ noneOf 8 ∧ 0 < min m 255 then some (min m 255 * 10) else none
                    framer := Framer.reset, counters := s.lines[l].counters } ∧
                (s.lines[l].framer.state = .hunt ∨ s.lines[l].framer.state = .discard ∨
                    s.lines[l].framer.state = .broken ∨
                    (s.lines[l].framer.state = .header ∧ s.lines[l].framer.kind = .copy) →
                  u = modLine (popLine s) l fun _ => u.lines[l]) ∧
                (∀ (j : SlotNo) (t : TakeNo) (k : Take), s.lines[l].framer.state = .copyBody →
                  s.lines[l].framer.takeRef = some (j, t) → takeAt s j t = some k →
                  StoredCut j t s.lines[l].framer k u ∧ u.recency = j :: s.recency.filter (fun m => m ≠ j)) ∧
                ((s.lines[l].framer.state = .manageBody ∨
                    (s.lines[l].framer.state = .header ∧ s.lines[l].framer.kind = .management)) →
                  Dropped u ∧
                  ∀ h : LineNo, s.mgmt.holder = some h → s.mgmt.reports.length < 8 →
                    u.mgmt.reports = s.mgmt.reports ++ [shortReplyText s.mgmt.tag h "CUT"]))))

/-- R50, R51, R54, R55: BANKKIND, BANKSUB and BANKSHIFT on a bank that is there. -/
def Obligations.BanksAreEmptiedAndCoded : Prop :=
  ∀ (s : State) (bk : Text) (b : BankNo), bankForm bk = some b.val →
    (∀ kd, serves s "BANKKIND" 3 [bk, kd] →
      (kindForm kd = none → RefusedWith (.bankkind [bk, kd]) s "BANKKIND" .form) ∧
      ∀ k, kindForm kd = some k → DoneWith (.bankkind [bk, kd]) s "BANKKIND" [bankTok b, kindTok k]
        { popLine s with
          banks := put s.banks b
            { kind := k, inLetters := Vector.replicate 32 .drop, inFigures := Vector.replicate 32 .drop
              inSeven := Vector.replicate 128 .drop, out := Vector.replicate 128 [], sub := none, lettersShift := none
              figuresShift := none, loaded := false } }) ∧
    (∀ cd, serves s "BANKSUB" 3 [bk, cd] →
      (outCodeForm s.banks[b].kind cd = none → RefusedWith (.banksub [bk, cd]) s "BANKSUB" .form) ∧
      ∀ n q, outCodeForm s.banks[b].kind cd = some (n, q) →
        (codeLimit s.banks[b].kind < n → RefusedWith (.banksub [bk, cd]) s "BANKSUB" .range) ∧
        ∀ x : LineCode, x.val = n → n ≤ codeLimit s.banks[b].kind →
          DoneWith (.banksub [bk, cd]) s "BANKSUB" [bankTok b, outCodeTok s.banks[b].kind ⟨x, q⟩]
            { popLine s with banks := modAt s.banks b fun y => { y with sub := some ⟨x, q⟩, loaded := true } }) ∧
    (∀ lt fg, serves s "BANKSHIFT" 3 [bk, lt, fg] →
      (s.banks[b].kind = .seven ∨ number? lt = none ∨ number? fg = none →
        RefusedWith (.bankshift [bk, lt, fg]) s "BANKSHIFT" .form) ∧
      ∀ m n, s.banks[b].kind = .five → number? lt = some m → number? fg = some n →
        (31 < m ∨ 31 < n → RefusedWith (.bankshift [bk, lt, fg]) s "BANKSHIFT" .range) ∧
        ∀ x y : LineCode, x.val = m → y.val = n → m ≤ 31 → n ≤ 31 →
          DoneWith (.bankshift [bk, lt, fg]) s "BANKSHIFT" [bankTok b, decimal x, decimal y]
            { popLine s with banks := modAt s.banks b fun k =>
              { k with lettersShift := some x, figuresShift := some y, loaded := true } })

/-- R52, R53, R56: BANKIN and BANKOUT write the entries typed at the places from the first on, set the loaded flag and change
nothing else; LINEBANK changes the bank field of a line, or is answered KEPT. That KEPT is the answer also where the bank named is the line's
own and no longer matches its width is the model's choice (notes/assumptions/29.md). -/
def Obligations.BankEntriesAndLineBanks : Prop :=
  (∀ (s : State) (bk first : Text) (b : BankNo) (i : Nat) (es : List Text), bankForm bk = some b.val →
    number? first = some i → 1 ≤ es.length → es.length ≤ 32 →
    (∀ hf ins, s.banks[b].kind = .five → serves s "BANKIN" 3 (bk :: hf :: first :: es) →
      forms (fun t => (inEntryForm .five t).bind entryInRange) es = some ins → i + es.length - 1 ≤ 31 →
      (halfForm hf = some .letters →
        DoneWith (.bankin (bk :: hf :: first :: es)) s "BANKIN"
          [bankTok b, txt "LETTERS", decimal i, decimal es.length]
          { popLine s with banks := modAt s.banks b fun y => { y with
            loaded := true
            inLetters := tabulate 32 fun j => if i ≤ j then (ins[j.val - i]?).getD y.inLetters[j] else y.inLetters[j] } }) ∧
      (halfForm hf = some .figures →
        DoneWith (.bankin (bk :: hf :: first :: es)) s "BANKIN"
          [bankTok b, txt "FIGURES", decimal i, decimal es.length]
          { popLine s with banks := modAt s.banks b fun y => { y with
            loaded := true
            inFigures := tabulate 32 fun j =>
              if i ≤ j then (ins[j.val - i]?).getD y.inFigures[j] else y.inFigures[j] } })) ∧
    (∀ ins, s.banks[b].kind = .seven → serves s "BANKIN" 3 (bk :: first :: es) →
      forms (fun t => (inEntryForm .seven t).bind entryInRange) es = some ins → i + es.length - 1 ≤ 127 →
      DoneWith (.bankin (bk :: first :: es)) s "BANKIN" [bankTok b, decimal i, decimal es.length]
        { popLine s with banks := modAt s.banks b fun y => { y with
          loaded := true
          inSeven := tabulate 128 fun j => if i ≤ j then (ins[j.val - i]?).getD y.inSeven[j] else y.inSeven[j] } }) ∧
    (∀ outs, serves s "BANKOUT" 3 (bk :: first :: es) →
      forms (fun t => (outEntryForm s.banks[b].kind t).bind (forms (codeInRange s.banks[b].kind))) es = some outs →
      i + es.length - 1 ≤ 127 →
      DoneWith (.bankout (bk :: first :: es)) s "BANKOUT" [bankTok b, decimal i, decimal es.length]
        { popLine s with banks := modAt s.banks b fun y => { y with
          loaded := true
          out := tabulate 128 fun j => if i ≤ j then (outs[j.val - i]?).getD y.out[j] else y.out[j] } })) ∧
  (∀ (s : State) (ln bk : Text), serves s "LINEBANK" 2 [ln, bk] →
    (lineForm ln = none ∨ bankForm bk = none → RefusedWith (.linebank [ln, bk]) s "LINEBANK" .form) ∧
    ∀ n m, lineForm ln = some n → bankForm bk = some m →
      (24 ≤ n → RefusedWith (.linebank [ln, bk]) s "LINEBANK" .range) ∧
      ∀ l : LineNo, l.val = n →
        (4 ≤ m → KeptWith (.linebank [ln, bk]) s "LINEBANK" [bankTok s.lines[l].desc.bank]) ∧
        ∀ b : BankNo, b.val = m →
          (kindMatches s.lines[l].desc.width s.banks[b].kind = false →
            KeptWith (.linebank [ln, bk]) s "LINEBANK" [bankTok s.lines[l].desc.bank]) ∧
          (kindMatches s.lines[l].desc.width s.banks[b].kind = true →
            DoneWith (.linebank [ln, bk]) s "LINEBANK" [bankTok b]
              { popLine s with lines := modAt s.lines l fun x => { x with desc := { x.desc with bank := b } } }))

/-! ### Routing -/

/-- R94 to R96: when a route entry matches a release, and the routed set. A circuit is in it when it is in service and stands in
the set of a matching entry that the scan reaches, or in the default set if no entry matches, or in the flash set for a
FLASH. The scan reaches an entry while no matching entry before it has its stop flag set. -/
def Obligations.RoutingMatchesAndScans : Prop :=
  (∀ (e : RouteEntry) (g : Category) (a : Agency) (c : Machine.Class),
    entryMatches e g a c = true ↔
      e.inUse = true ∧ (e.cat1 = none ∨ e.cat1 = some g.first) ∧ (e.cat2 = none ∨ e.cat2 = some g.second) ∧
        (e.cat3 = none ∨ e.cat3 = some g.third) ∧ (e.agency = none ∨ e.agency = some a) ∧ classIdx c ≤ classIdx e.floor) ∧
  (∀ (s : State) (g : Category) (a : Agency) (c : Machine.Class) (i : CircuitNo),
    i ∈ routedSet s g a c ↔
      circuitInService s.circuits[i] = true ∧
        ((∃ n : EntryNo, entryMatches s.routes[n] g a c = true ∧ s.routes[n].circuits[i] = true ∧
            ∀ m : EntryNo, m < n → ¬(entryMatches s.routes[m] g a c = true ∧ s.routes[m].stop = true)) ∨
          ((∀ n : EntryNo, entryMatches s.routes[n] g a c = false) ∧ s.defaultSet[i] = true) ∨
          (c = .flash ∧ s.flashSet[i] = true)))

/-- R98 to R101: ROUTE writes a whole entry, and ROUTEOFF returns one to the values of an entry not in use. That ROUTE's
results leave out the entry's number is notes/assumptions/10.md. -/
def Obligations.RouteEntriesAreWritten : Prop :=
  ∀ (s : State) (n : EntryNo) (en : Text), entryNamed en = some n →
    (∀ (cat ag fl cs st lv : Text) (p1 p2 p3 : Option Letter) (a : Option Agency) (f : Machine.Class) (l : List CircuitNo)
        (stop : Bool) (v : Level),
      patternForm cat = some (p1, p2, p3) → agencyForm ag = some a → classForm fl = some f →
      listForm circuitForm cs = some (l.map Fin.val) → stopFlagForm st = some stop → oneDigit lv = some v.val →
      serves s "ROUTE" (max (max 2 s.routes[n].editLevel.val) v.val) [en, cat, ag, fl, cs, st, lv] →
      DoneWith (.route [en, cat, ag, fl, cs, st, lv]) s "ROUTE"
        [[patternTok p1, patternTok p2, patternTok p3], anyAgencyTok a, [classLetter f], circuitSetTok (setOf l),
          if stop then txt "STOP" else txt "PASS", decimal v]
        { popLine s with
          routes := put s.routes n
            { inUse := true, cat1 := p1, cat2 := p2, cat3 := p3, agency := a, floor := f, circuits := setOf l
              stop := stop, editLevel := v } }) ∧
    (serves s "ROUTEOFF" (max 2 s.routes[n].editLevel.val) [en] →
      DoneWith (.routeoff [en]) s "ROUTEOFF" [if s.routes[n].inUse then txt "USED" else txt "UNUSED"]
        { popLine s with
          routes := put s.routes n
            { inUse := false, cat1 := none, cat2 := none, cat3 := none, agency := none, floor := .deferred
              circuits := noneOf 16, stop := false, editLevel := 0 } })

/-- R99, R102 to R104: MARK, UNMARK, FLIP and TEST on one circuit of an entry; of an entry not in use, ABSENT. DEFAULTS and FLASHSET
replace their sets and answer with the set before and the set as stored. -/
def Obligations.CircuitSetsAreChangedAndRead : Prop :=
  (∀ (s : State) (n : EntryNo) (c : CircuitNo) (en cn : Text), entryNamed en = some n → circuitForm cn = some c.val →
    ∀ was, was = (if s.routes[n].circuits[c] then txt "IN" else txt "OUT") →
    ∀ becomes : Bool → State, becomes = (fun m => { popLine s with
      routes := modAt s.routes n fun x => { x with circuits := put x.circuits c m } }) →
    (serves s "MARK" (max 2 s.routes[n].editLevel.val) [en, cn] →
      (s.routes[n].inUse = true → DoneWith (.mark [en, cn]) s "MARK" [was] (becomes true)) ∧
      (s.routes[n].inUse = false → RefusedWith (.mark [en, cn]) s "MARK" .absent)) ∧
    (serves s "UNMARK" (max 2 s.routes[n].editLevel.val) [en, cn] →
      (s.routes[n].inUse = true → DoneWith (.unmark [en, cn]) s "UNMARK" [was] (becomes false)) ∧
      (s.routes[n].inUse = false → RefusedWith (.unmark [en, cn]) s "UNMARK" .absent)) ∧
    (serves s "FLIP" (max 2 s.routes[n].editLevel.val) [en, cn] →
      (s.routes[n].inUse = true →
        DoneWith (.flip [en, cn]) s "FLIP" [was] (becomes (!s.routes[n].circuits[c]))) ∧
      (s.routes[n].inUse = false → RefusedWith (.flip [en, cn]) s "FLIP" .absent)) ∧
    (serves s "TEST" 1 [en, cn] →
      (s.routes[n].inUse = true → DoneWith (.test [en, cn]) s "TEST" [was] (popLine s)) ∧
      (s.routes[n].inUse = false → RefusedWith (.test [en, cn]) s "TEST" .absent))) ∧
  (∀ (s : State) (cs : Text),
    (serves s "DEFAULTS" 2 [cs] →
      (listForm circuitForm cs = none → RefusedWith (.defaults [cs]) s "DEFAULTS" .form) ∧
      (∀ l, listForm circuitForm cs = some l → (∃ n ∈ l, 16 ≤ n) → RefusedWith (.defaults [cs]) s "DEFAULTS" .range) ∧
      ∀ l : List CircuitNo, listForm circuitForm cs = some (l.map Fin.val) →
        DoneWith (.defaults [cs]) s "DEFAULTS" [circuitSetTok s.defaultSet, circuitSetTok (setOf l)]
          { popLine s with defaultSet := setOf l }) ∧
    (serves s "FLASHSET" 2 [cs] →
      (listForm circuitForm cs = none → RefusedWith (.flashset [cs]) s "FLASHSET" .form) ∧
      (∀ l, listForm circuitForm cs = some l → (∃ n ∈ l, 16 ≤ n) → RefusedWith (.flashset [cs]) s "FLASHSET" .range) ∧
      ∀ l : List CircuitNo, listForm circuitForm cs = some (l.map Fin.val) →
        DoneWith (.flashset [cs]) s "FLASHSET" [circuitSetTok s.flashSet, circuitSetTok (setOf l)]
          { popLine s with flashSet := setOf l }))

/-! ### Precedence and the delivery queues -/

/-- R106, R108, R118: which class breaks into which; and the score, the smaller of the rise and the cap: under a table whose bases
are in range and decrease, every score is at most 255, a FLASH scores at least its base, and every other class scores below
it. -/
def Obligations.ClassesBreakInAndScore : Prop :=
  (∀ (opt : Bool) (x y : Machine.Class),
    breaksInto opt x y = true ↔
      (x = .flash ∧ y ≠ .flash) ∨ (x = .bulletin ∧ (y = .urgent ∨ y = .routine ∨ y = .deferred) ∧ opt = true)) ∧
  (∀ (p : Vector PrecRow 5) (c : Machine.Class) (age : Nat),
    score p c age = min (p[classIdx c].base + age * p[classIdx c].climb / 16)
      (if c = .flash then 255 else p[(0 : Fin 5)].base - 1) ∧
    (basesInRange p = true → basesDecrease p = true →
      score p c age ≤ 255 ∧ (c = .flash → p[(0 : Fin 5)].base ≤ score p c age) ∧
        (c ≠ .flash → score p c age < p[(0 : Fin 5)].base)))

/-- R119, R120: what a selection for a circuit answers, step by step. -/
def Obligations.SelectionTakesTheFirstStep : Prop :=
  ∀ (s : State) (c : CircuitNo) (q : List Rec), q = s.circuits[c].queue →
    (∀ t i, s.circuits[c].sender.chain.getLast? = some t → IsBest (isBreaker s c t.cls) (scoreOf s) q i →
      choose s c = .start i) ∧
    (∀ t, s.circuits[c].sender.chain.getLast? = some t → (∀ r ∈ q, isBreaker s c t.cls r = false) →
      degreeOf s c = .notWithheld → choose s c = .resume t) ∧
    ((s.circuits[c].sender.chain = [] ∨ ∃ t, s.circuits[c].sender.chain.getLast? = some t ∧
        (∀ r ∈ q, isBreaker s c t.cls r = false) ∧ degreeOf s c ≠ .notWithheld) →
      (s.mgmt.reportCircuit = c → s.mgmt.reports ≠ [] → (∀ r ∈ q, isEligible s c r = true → scoreOf s r < 200) →
        choose s c = .report) ∧
      (∀ i, (s.mgmt.reportCircuit ≠ c ∨ s.mgmt.reports = [] ∨ ∃ r ∈ q, isEligible s c r = true ∧ 200 ≤ scoreOf s r) →
        IsBest (isEligible s c) (scoreOf s) q i → choose s c = .start i) ∧
      ((s.mgmt.reportCircuit ≠ c ∨ s.mgmt.reports = []) → (∀ r ∈ q, isEligible s c r = false) →
        choose s c = .nothing))

/-- R113, R115 to R117: making records. With enough free records a making takes one for each circuit of its list and leaves the
other circuits alone. A turn that finds the pool empty, for a class below FLASH or a FLASH with no ROUTINE or DEFERRED record to
displace, counts a miss, and POOL_EMPTY occurs with the circuit; otherwise the FLASH displaces the lowest-scored of them, the
nearest to the tail among equals, which is counted missed, DELIVERY_MISSED occurring with its story, and made into the
FLASH's record. A return to the pool between two turns gives its record to the later one: in the last clause the turn of
`a` finds the pool empty, a delivery finishes on `d`, and the turn of `b` finds its record. -/
def Obligations.RecordsAreMadeForEachCircuit : Prop :=
  (∀ (s : State) (cs : List CircuitNo) (n : SlotNo) (r : Rec), s.meanwhile = [] → IdleCarriesNothing s → cs.Nodup →
    cs.length ≤ s.freeCount →
    ∀ u, u = makeRecords s cs n r →
      u.freeCount = s.freeCount - cs.length ∧
      u.slots = modAt s.slots n (fun x => { x with pendingCount := x.pendingCount + cs.length }) ∧
      (∀ c ∈ cs, recordsOn (fun x => decide (x = r)) u.circuits[c] =
        recordsOn (fun x => decide (x = r)) s.circuits[c] + 1) ∧
      ∀ c : CircuitNo, c ∉ cs → u.circuits[c] = s.circuits[c]) ∧
  (∀ (s : State) (c : CircuitNo) (n : SlotNo) (r : Rec), s.meanwhile = [] → s.freeCount = 0 →
    (r.cls ≠ .flash ∨ ∀ x ∈ s.circuits[c].queue, x.cls ≠ .routine ∧ x.cls ≠ .deferred) →
    ∀ u, u = makeRecords s [c] n r →
      u.freeCount = 0 ∧ u.slots = s.slots ∧
      u.circuits[c].sender.missed = min (s.circuits[c].sender.missed + 1) 65535 ∧
      Occurred .poolEmpty (.circuit c) s u ∧ DeliveryOnly s u) ∧
  (∀ (s : State) (c : CircuitNo) (n : SlotNo) (r old : Rec) (i : Nat), s.meanwhile = [] → IdleCarriesNothing s →
    s.freeCount = 0 → r.cls = .flash →
    IsWorst (fun x => decide (x.cls = .routine ∨ x.cls = .deferred)) (scoreOf s) s.circuits[c].queue i →
    s.circuits[c].queue[i]? = some old →
    ∀ u, u = makeRecords s [c] n r →
      u.freeCount = 0 ∧
      u.slots = modAt (match old.ref with
        | some f => modAt s.slots f.slot fun x => unname x f
        | none => s.slots) n (fun x => { x with pendingCount := x.pendingCount + 1 }) ∧
      u.circuits[c].sender.missed = min (s.circuits[c].sender.missed + 1) 65535 ∧
      (∀ f y, old.ref = some f → s.slots[f.slot].key = some y → Occurred .deliveryMissed (.circuitKey c y) s u) ∧
      recordsOn (fun x => decide (x = old)) u.circuits[c] + 1 =
        recordsOn (fun x => decide (x = old)) s.circuits[c] ∧
      recordsOn (fun x => decide (x = r)) u.circuits[c] =
        recordsOn (fun x => decide (x = r)) s.circuits[c] + 1 ∧
      DeliveryOnly s u) ∧
  ∀ (s : State) (a b d : CircuitNo) (n : SlotNo) (r x : Rec) (f : RecRef) (g : Sending), a ≠ b → a ≠ d → b ≠ d →
    s.meanwhile = [[], [.characterSent d]] → IdleCarriesNothing s → s.freeCount = 0 → r.cls ≠ .flash →
    s.latch.alertMode = false → s.circuits[d].sender.sending = some g → s.circuits[d].sender.carried = .record x →
    x.ref = some f → s.circuits[d].sender.state = .carrying → s.circuits[d].sender.phase = .trailer →
    s.circuits[d].sender.tail = [] →
    ∀ u, u = makeRecords s [a, b] n r →
      u.freeCount = 0 ∧ u.meanwhile = [] ∧
      u.circuits[a].sender.missed = min (s.circuits[a].sender.missed + 1) 65535 ∧
      u.circuits[b].sender.missed = s.circuits[b].sender.missed ∧
      u.circuits[d].sender.completed = min (s.circuits[d].sender.completed + 1) 65535 ∧
      recordsOn (fun y => decide (y = r)) u.circuits[b] =
        recordsOn (fun y => decide (y = r)) s.circuits[b] + 1 ∧
      Occurred .poolEmpty (.circuit a) s u

/-- R89, R107: PRECEDENCE reads, loads or refuses the table whole, and TAKEWAIT sets the take wait limit. -/
def Obligations.PrecedenceAndTakeWaitAreSet : Prop :=
  ∀ s : State,
    (serves s "PRECEDENCE" 3 [] →
      DoneWith (.precedence []) s "PRECEDENCE"
        (s.precedence.toList.map fun r => [decimal r.base, decimal r.climb]).flatten (popLine s)) ∧
    (∀ ops : List Text, ops ≠ [] → serves s "PRECEDENCE" 3 ops →
      (ops.length ≠ 10 ∨ (∃ t ∈ ops, number? t = none) → RefusedWith (.precedence ops) s "PRECEDENCE" .form) ∧
      ∀ b0 c0 b1 c1 b2 c2 b3 c3 b4 c4 : Nat,
        ops.map number? = [some b0, some c0, some b1, some c1, some b2, some c2, some b3, some c3, some b4, some c4] →
        (255 < b0 ∨ b0 ≤ b1 ∨ b1 ≤ b2 ∨ b2 ≤ b3 ∨ b3 ≤ b4 → RefusedWith (.precedence ops) s "PRECEDENCE" .range) ∧
        (b0 ≤ 255 → b1 < b0 → b2 < b1 → b3 < b2 → b4 < b3 →
          DoneWith (.precedence ops) s "PRECEDENCE"
            ([b0, min c0 15, b1, min c1 15, b2, min c2 15, b3, min c3 15, b4, min c4 15].map decimal)
            { popLine s with precedence :=
              #v[⟨b0, min c0 15⟩, ⟨b1, min c1 15⟩, ⟨b2, min c2 15⟩, ⟨b3, min c3 15⟩, ⟨b4, min c4 15⟩] })) ∧
    (∀ t, serves s "TAKEWAIT" 3 [t] →
      (number? t = none → RefusedWith (.takewait [t]) s "TAKEWAIT" .form) ∧
      ∀ n, number? t = some n →
        DoneWith (.takewait [t]) s "TAKEWAIT" [decimal (min n 255)] { popLine s with takeWait := min n 255 })

/-- R90, R125, R126, R189, R190, R203: QUEUE, STORY, COUNTS and STATUS answer with what the part holds and change nothing;
CLEARCOUNTS sets every counter of every line and circuit to 0 and touches nothing else. Empty listings are
notes/assumptions/11.md. -/
def Obligations.ReadsAndCounters : Prop :=
  (∀ s : State,
    (∀ (t : Text) (c : CircuitNo), circuitForm t = some c.val → serves s "QUEUE" 1 [t] →
      DoneWith (.queue [t]) s "QUEUE"
        ([circuitTok c, decimal s.circuits[c].queue.length, decimal s.freeCount] ++
          (s.circuits[c].queue.take 16).map (recordTok s)) (popLine s)) ∧
    (∀ (t : Text) (k : Key), keyForm t = some k → serves s "STORY" 1 [t] →
      (lookup s k = none → RefusedWith (.story [t]) s "STORY" .absent) ∧
      ∀ n, lookup s k = some n → DoneWith (.story [t]) s "STORY" (storyToks n s.slots[n]) (popLine s)) ∧
    (∀ (t : Text) (l : LineNo), lineForm t = some l.val → serves s "COUNTS" 1 [t] →
      ∀ k, k = s.lines[l].counters →
      DoneWith (.counts [t]) s "COUNTS"
        [lineTok l, decimal k.messagesTaken, decimal k.headerFaults, decimal k.framing, decimal k.duplicates,
          decimal k.refused, decimal k.stray] (popLine s)) ∧
    (∀ (t : Text) (c : CircuitNo), circuitForm t = some c.val → serves s "COUNTS" 1 [t] →
      ∀ x, x = s.circuits[c].sender →
      DoneWith (.counts [t]) s "COUNTS" [circuitTok c, decimal x.completed, decimal x.missed, decimal x.breaksIn]
        (popLine s)) ∧
    (serves s "STATUS" 1 [] →
      ∀ lineList : (Line → Bool) → Text, lineList = (fun p =>
        listTok (((List.finRange 24).filter fun l => p s.lines[l]).map lineTok)) →
      ∀ circuitList : (Circuit → Bool) → Text, circuitList = (fun p =>
        listTok (((List.finRange 16).filter fun c => p s.circuits[c]).map circuitTok)) →
      DoneWith (.status []) s "STATUS"
        [onOffTok s.mode.quiet, serviceTok s.mode.service, windowTok s.mode.windowFirst s.mode.windowLast,
          circuitTok s.mgmt.reportCircuit, onOffTok s.latch.alertMode, checkTok s.mode.loadedFlag,
          checkTok s.mode.consistentFlag, lineList lineInService,
          lineList (fun x => decide (x.desc.rates ≠ noneOf 8) && x.outOfService), circuitList circuitInService,
          circuitList (fun x => decide (x.desc.rates ≠ noneOf 8) && x.outOfService)] (popLine s))) ∧
  (∀ s : State, serves s "CLEARCOUNTS" 2 [] →
    DoneWith (.clearcounts []) s "CLEARCOUNTS" [] { popLine s with
      lines := mapAll s.lines fun x => { x with counters :=
        { messagesTaken := 0, headerFaults := 0, framing := 0, duplicates := 0, refused := 0, stray := 0 } }
      circuits := mapAll s.circuits fun x =>
        { x with sender := { x.sender with completed := 0, missed := 0, breaksIn := 0 } } })

/-! ### The story store -/

/-- R82 to R84: HOLD, case by case, UNHOLD and UNHOLDALL. -/
def Obligations.HoldAndUnholdAStory : Prop :=
  (∀ (s : State) (t : Text), serves s "HOLD" 1 [t] →
    (keyForm t = none → RefusedWith (.hold [t]) s "HOLD" .form) ∧
    ∀ k, keyForm t = some k →
      (∀ n, lookup s k = some n → (s.slots[n].held = true ∨ heldCount s < 32) →
        DoneWith (.hold [t]) s "HOLD" [slotTok n]
          { popLine s with
            slots := modAt s.slots n fun x => { x with held := true }
            recency := n :: s.recency.filter (fun m => m ≠ n) }) ∧
      (∀ n, lookup s k = some n → s.slots[n].held = false → 32 ≤ heldCount s →
        RefusedWith (.hold [t]) s "HOLD" .full) ∧
      (lookup s k = none → 32 ≤ heldCount s ∨ slotToAllocate s = none → RefusedWith (.hold [t]) s "HOLD" .full) ∧
      ∀ n, lookup s k = none → heldCount s < 32 → slotToAllocate s = some n →
        DoneWith (.hold [t]) s "HOLD" [slotTok n]
          { popLine s with
            slots := put s.slots n { Slot.freed with state := .occupied, key := some k, held := true }
            recency := n :: s.recency.filter (fun m => m ≠ n) }) ∧
  (∀ s : State,
    (∀ t, serves s "UNHOLD" 1 [t] →
      (keyForm t = none → RefusedWith (.unhold [t]) s "UNHOLD" .form) ∧
      ∀ k, keyForm t = some k →
        (lookup s k = none → RefusedWith (.unhold [t]) s "UNHOLD" .absent) ∧
        ∀ n, lookup s k = some n → DoneWith (.unhold [t]) s "UNHOLD" [slotTok n]
          { popLine s with
            slots := modAt s.slots n fun x => { x with held := false }
            recency := n :: s.recency.filter (fun m => m ≠ n) }) ∧
    (serves s "UNHOLDALL" 2 [] → DoneWith (.unholdall []) s "UNHOLDALL" [decimal (heldCount s)]
      { popLine s with slots := mapAll s.slots fun x => { x with held := false } }))

/-- R85: REPEAT on a hit. It moves the slot to the front, changes nothing but deliveries, and, with nothing coming in its
middle, makes one record from the pool for each number queued and leaves some unmade only with the pool empty and POOL_EMPTY
latched. For one stored take and one circuit in service that is STARTING or CLOSING, the record joins the tail of the
queue. -/
def Obligations.RepeatQueuesTakesAgain : Prop :=
  ∀ (s : State) (ops : List Text) (k : Key) (r : Option (Nat × Nat)) (l : List CircuitNo) (x : Machine.Class)
      (n : SlotNo),
    repeatForms ops = some { key := k, range := r, circuits := l.map Fin.val, cls := x } → rangeInRange r = true →
    lookup s k = some n → serves s "REPEAT" 1 ops →
    ∃ u q m, DoneWith (.repeatTakes ops) s "REPEAT" [decimal q, decimal m] (atOnce u) ∧
      DeliveryOnly { popLine s with recency := n :: s.recency.filter (fun j => j ≠ n) } u ∧
      (s.meanwhile = [] → u.freeCount + q = s.freeCount ∧
        u.slots = modAt s.slots n (fun y => { y with pendingCount := y.pendingCount + q }) ∧
        (0 < m → u.freeCount = 0 ∧ (entryOf u .poolEmpty).latched = true)) ∧
      ∀ (t : TakeNo) (c : CircuitNo), r = some (t.val, t.val) → l = [c] → isStored s.slots[n] t = true →
        circuitInService s.circuits[c] = true → 0 < s.freeCount → s.meanwhile = [] →
        (∀ y ∈ s.circuits[c].queue, ¬(ofTake n t y = true ∧ y.kind = .rpt)) →
        (s.circuits[c].sender.state = .starting ∨ s.circuits[c].sender.state = .closing) →
        q = 1 ∧ m = 0 ∧ u.circuits = modAt s.circuits c fun y => { y with
          queue := y.queue ++ [{ ref := some { slot := n, take := t, version := .current }, cls := x, kind := .rpt
                                 gap := [], age := 0, resume := none, composed := none }] }

/-- R63, R86: WITHDRAW on a hit. The story's queued and suspended records return to the pool, its carried ones are detached
and told to print the withdrawal line, framers filling it pass their messages over, and its slot is freed, or emptied if
held. -/
def Obligations.WithdrawRemovesAStory : Prop :=
  ∀ (s : State) (t : Text) (k : Key) (n : SlotNo), keyForm t = some k → lookup s k = some n →
    serves s "WITHDRAW" 2 [t] →
    ∀ sum : (CircuitNo → Nat) → Nat, sum = (fun f => ((List.finRange 16).map f).sum) →
    ∀ q, q = sum (fun c => (s.circuits[c].queue.filter (names n)).length) →
    ∀ p, p = sum (fun c => (s.circuits[c].sender.chain.filter (names n)).length) →
    ∃ u, DoneWith (.withdraw [t]) s "WITHDRAW"
        [decimal q, decimal (sum fun c => carriedCount (names n) s.circuits[c].sender), decimal p] u ∧
      u = { popLine s with
        lines := mapAll s.lines fun x => match x.framer.takeRef with
          | some (m, _) =>
            if m = n then { x with framer := { x.framer with state := .discard, takeRef := none, held := 0 } } else x
          | none => x
        slots := put s.slots n (if s.slots[n].held then
          { Slot.freed with state := .occupied, key := some k, held := true } else Slot.freed)
        recency := if s.slots[n].held then s.recency else s.recency.filter (fun m => m ≠ n) ++ [n]
        freeCount := s.freeCount + q + p
        circuits := mapAll s.circuits fun y =>
          { y with
            queue := y.queue.filter fun r => !names n r
            sender := { y.sender with
              chain := y.sender.chain.filter fun r => !names n r
              carried := match y.sender.carried with
                | .record r => if names n r then .record { r with ref := none } else .record r
                | z => z
              cutTold := match y.sender.carried with
                | .record r => if names n r then some .withdrawal else y.sender.cutTold
                | _ => y.sender.cutTold } } }

/-- R87, R88: CLEARUNHELD frees the evictable slots; CLEARSTORE frees every slot, returns every queued and suspended record
that reads the store to the pool and has the carried ones cut. Both put the recency list in reset order. -/
def Obligations.ClearsEmptyTheStore : Prop :=
  ∀ s : State,
    (serves s "CLEARUNHELD" 3 [] →
      DoneWith (.clearunheld []) s "CLEARUNHELD"
        [decimal ((List.finRange 40).filter fun n => evictable s.slots[n]).length]
        { popLine s with
          slots := mapAll s.slots fun x => if evictable x then Slot.freed else x
          recency := List.finRange 40 }) ∧
    (serves s "CLEARSTORE" 3 [] →
      ∀ sum : (CircuitNo → Nat) → Nat, sum = (fun f => ((List.finRange 16).map f).sum) →
      ∀ q, q = sum (fun c => (s.circuits[c].queue.filter namesAny).length) →
      ∀ p, p = sum (fun c => (s.circuits[c].sender.chain.filter namesAny).length) →
      DoneWith (.clearstore []) s "CLEARSTORE"
        [decimal q, decimal (sum fun c => carriedCount namesAny s.circuits[c].sender), decimal p]
        { popLine s with
          lines := mapAll s.lines fun x => match x.framer.takeRef with
            | some _ => { x with framer := { x.framer with state := .discard, takeRef := none, held := 0 } }
            | none => x
          slots := Vector.replicate 40 Slot.freed
          recency := List.finRange 40
          freeCount := s.freeCount + q + p
          circuits := mapAll s.circuits fun y =>
            { y with
              queue := y.queue.filter fun r => !namesAny r
              sender := { y.sender with
                chain := y.sender.chain.filter fun r => !namesAny r
                carried := match y.sender.carried with
                  | .record r => .record { r with ref := none }
                  | z => z
                cutTold := match y.sender.carried with
                  | .record r => if namesAny r then some .storeCut else y.sender.cutTold
                  | _ => y.sender.cutTold } } })

/-- R72 to R74: the wait timer of a WAITING take expires. The numbers below it that are neither cleared nor stored are passed,
every WAITING take up to it is released with its timer stopped, and TAKE_GAP occurs with the lowest number passed. Where no other
take waits, nothing comes in the middle and no alert falls due, each circuit of the routed set has one record made, of kind
NEW, with the numbers passed just below the take as its gap notice (R77, R113). -/
def Obligations.WaitExpiryPassesTheGap : Prop :=
  ∀ (s : State) (n : SlotNo) (m : TakeNo), s.resetLow = false → isWaiting s.slots[n] m = true →
    ∃ u, exec (.waitTimerExpires n m) s = .next (atOnce u) ∧
      (∀ j : TakeNo, u.slots[n].passed[j] = true ↔ s.slots[n].passed[j] = true ∨
        (j < m ∧ cleared s.slots[n] j = false ∧ isStored s.slots[n] j = false)) ∧
      (∀ t : TakeNo, t ≤ m → isWaiting s.slots[n] t = true → ∃ k, takeAt u n t = some k ∧
        k.state = .released ∧ k.releasedFlag = true ∧ k.waitTimer = none) ∧
      (∀ (y : Key) (g : TakeNo), s.slots[n].key = some y → g < m → cleared s.slots[n] g = false →
        isStored s.slots[n] g = false →
        (∀ j : TakeNo, j < g → cleared s.slots[n] j = true ∨ isStored s.slots[n] j = true) →
        Occurred .takeGap (.keyTake y g) s u) ∧
      StoryOnly n s u ∧
      ∀ (k : Take) (y : Key) (g : Category) (cs : List CircuitNo) (r : Rec), s.meanwhile = [] → IdleCarriesNothing s →
        s.latch.alertMode = false → (∀ j : TakeNo, isWaiting s.slots[n] j = true → j = m) → takeAt s n m = some k →
        s.slots[n].key = some y → s.slots[n].category = some g → cs = routedSet s g y.agency k.cls →
        cs.length ≤ s.freeCount →
        r = { ref := some { slot := n, take := m, version := .current }, cls := k.cls, kind := .new, age := 0
              gap := (List.finRange 12).filter fun j => decide (j < m ∧ ∀ i : TakeNo, j ≤ i → i < m →
                cleared s.slots[n] i = false ∧ isStored s.slots[n] i = false)
              resume := none, composed := none } →
        u.freeCount = s.freeCount - cs.length ∧ u.slots[n].pendingCount = s.slots[n].pendingCount + cs.length ∧
          (∀ c ∈ cs, recordsOn (fun x => decide (x = r)) u.circuits[c] =
            recordsOn (fun x => decide (x = r)) s.circuits[c] + 1) ∧
          ∀ c : CircuitNo, c ∉ cs → u.circuits[c] = s.circuits[c]

/-! ### Desk circuits -/

/-- R130, R131, R154: CIRCUIT, its operands in their forms. It is refused RANGE, FORM or MODE in that order. Accepted on a
STOPPED sender, it replaces the descriptor and lifts the mark; with a rate set the sender tests for work, and with none the
circuit goes out of service: what it carries, its suspended and its queued records return to the pool and are counted missed,
but for a detached one, DELIVERY_MISSED occurring with the circuit and the story; a report stays in the buffer. That the
results leave out the circuit's number is notes/assumptions/10.md. -/
def Obligations.CircuitSetsTheCircuit : Prop :=
  ∀ (s : State) (cn rs wd sp bk cw md ro op : Text) (n : Nat) (r : RateSet) (w : Width) (p : Stop) (b : BankNo)
      (kw km kr : Nat) (o : Bool),
    serves s "CIRCUIT" 3 [cn, rs, wd, sp, bk, cw, md, ro, op] → circuitForm cn = some n → rateSetForm rs = some r →
    widthForm wd = some w → stopForm sp = some p → bankInRange bk = some b → number? cw = some kw →
    number? md = some km → number? ro = some kr → onOffForm op = some o →
    ∀ i, i = Instr.circuit [cn, rs, wd, sp, bk, cw, md, ro, op] →
    (16 ≤ n → RefusedWith i s "CIRCUIT" .range) ∧
    ∀ c : CircuitNo, c.val = n →
      (kindMatches w s.banks[b].kind = false → RefusedWith i s "CIRCUIT" .form) ∧
      (kindMatches w s.banks[b].kind = true →
        (s.circuits[c].sender.state ≠ .stopped → RefusedWith i s "CIRCUIT" .mode) ∧
        (s.circuits[c].sender.state = .stopped →
          ∀ d, d = { rates := r, width := w, stop := p, bank := b, carriage := max 20 (min 120 kw), motorDelay := min km 255
                     runOn := min kr 255, bulletinBreak := o } →
          ∀ m, m = modCircuit (popLine s) c (fun x => { x with desc := d, outOfService := false }) →
          ∃ u, DoneWith i s "CIRCUIT"
              [rateSetTok r, widthTok w, stopTok p, bankTok b, decimal (max 20 (min 120 kw)), decimal (min km 255),
                decimal (min kr 255), onOffTok o] (atOnce u) ∧
            (r ≠ noneOf 8 → CircuitChanged c (Offered m c) m u) ∧
            (r = noneOf 8 →
              CircuitOut u.circuits[c] ∧ DeliveryOnly m u ∧ m.mgmt.reports <+: u.mgmt.reports ∧
              (s.circuits[c].sender.missed ≤ 65535 → u.circuits[c].sender.missed =
                min (s.circuits[c].sender.missed + missedBy s.circuits[c]) 65535) ∧
              u.freeCount = s.freeCount + recordsOn (fun _ => true) s.circuits[c] ∧
              (∀ x y, StandsOn x s.circuits[c] → keyOfRecord s x = some y →
                (entryOf u .deliveryMissed).latched = true ∧
                (missedBy s.circuits[c] = 1 → Occurred .deliveryMissed (.circuitKey c y) s u)) ∧
              (s.latch.alertMode = false → ∀ e : CircuitNo, e ≠ c → u.circuits[e] = s.circuits[e]))))

/-- R109, R122, R134 to R136: the motor start timer's expiry makes a STARTING sender select and begin what is chosen; the run-on timer's turns a PAUSING
sender's motor off; the second adds one to every queued record's age, an age of 4095 staying. That no timer moves with the
second is the model's choice (notes/assumptions/4.md). -/
def Obligations.MotorTimersAndTheSecond : Prop :=
  (∀ (s : State) (c : CircuitNo), s.resetLow = false →
    (s.circuits[c].sender.state = .starting →
      ∃ u, exec (.motorStartTimerExpires c) s = .next (atOnce u) ∧ CircuitChanged c (Selected s c) s u) ∧
    (s.circuits[c].sender.state = .pausing →
      exec (.runOnTimerExpires c) s = .next (modCircuit s c fun x => { x with
        sender := { x.sender.bare with
          state := .stopped, motor := false, motorTimer := none, runOnTimer := none, column := 0 } }))) ∧
  (∀ s : State, s.resetLow = false →
    exec .secondAgeing s = .next { s with
      circuits := mapAll s.circuits fun x => { x with queue := x.queue.map fun r => { r with age := min (r.age + 1) 4095 } } })

/-- R137, R138, R141: at a character-sent event with nothing else to deal with, a sender in BODY takes the next character of
its version, or sends a fold NL before an advancing character at the carriage width. -/
def Obligations.TheNextCharacterIsTaken : Prop :=
  ∀ (s : State) (c : CircuitNo) (r : Rec) (g : Sending) (h : House), s.resetLow = false →
    s.circuits[c].sender.sending = some g → s.circuits[c].sender.carried = .record r → r.ref ≠ none →
    s.circuits[c].sender.state = .carrying → s.circuits[c].sender.phase = .body →
    s.circuits[c].sender.breakPending = false →
    (readVersion s r).text[s.circuits[c].sender.bodyPos]? = some h →
    ∀ col line, col = columnAfter g s.circuits[c].sender →
    line = (if g.char = houseNL ∧ g.phase = .body then s.circuits[c].sender.bodyPos
      else s.circuits[c].sender.lineStart) →
    (isAdvancing h = true → col = s.circuits[c].desc.carriage →
      exec (.characterSent c) s = .next (atOnce (modSender s c fun x => { x with
        column := col
        lineStart := line
        belief := (groupOf s c x.belief houseNL).2
        sending := some { char := houseNL, phase := .body, codes := (groupOf s c x.belief houseNL).1 } }))) ∧
    (¬(isAdvancing h = true ∧ col = s.circuits[c].desc.carriage) →
      exec (.characterSent c) s = .next (atOnce (modSender s c fun x => { x with
        column := col
        lineStart := line
        bodyPos := x.bodyPos + 1
        belief := (groupOf s c x.belief h).2
        sending := some { char := h, phase := .body, codes := (groupOf s c x.belief h).1 } })))

/-- R122, R124, R135, R143: the last NL of a trailer has been sent. The record returns to the pool, the completed counter counts one, and
the sender asks for a selection and begins what is chosen, or pauses. -/
def Obligations.DeliveriesFinish : Prop :=
  ∀ (s : State) (c : CircuitNo) (r : Rec) (f : RecRef) (g : Sending), s.resetLow = false →
    s.circuits[c].sender.sending = some g → s.circuits[c].sender.carried = .record r → r.ref = some f →
    s.circuits[c].sender.state = .carrying ∨ s.circuits[c].sender.state = .closing →
    s.circuits[c].sender.phase = .trailer → s.circuits[c].sender.tail = [] →
    ∀ m, m = modSender (modSlot { s with freeCount := s.freeCount + 1 } f.slot fun x => unname x f) c (fun x =>
      { x.bare with column := columnAfter g x, completed := min (x.completed + 1) 65535 }) →
    (f.version = .current → m.slots = modAt s.slots f.slot fun x => { x with pendingCount := x.pendingCount - 1 }) ∧
    ∃ u, exec (.characterSent c) s = .next (atOnce u) ∧ CircuitChanged c (Selected m c) m u

/-- R121, R140, R146 to R149: at a character-sent event with break pending, before the trailer, a sender with a breaker suspends
its record on top of the chain, with the resume offset its phase gives, and carries the breaker from its break prelude. A
record broken off before its header began keeps the header line it was started with and is resumed with it; a record with a
resume offset is resumed with its resume line. -/
def Obligations.BreaksAreMade : Prop :=
  (∀ (s : State) (c : CircuitNo) (r b : Rec) (g : Sending) (i : Nat) (x : Sender), x = s.circuits[c].sender →
    s.resetLow = false → x.sending = some g → x.carried = .record r → r.ref ≠ none → x.state = .carrying →
    x.breakPending = true → IsBest (isBreaker s c r.cls) (scoreOf s) s.circuits[c].queue i →
    s.circuits[c].queue[i]? = some b →
    ∀ resume, (x.phase = .lead ∧ x.lead ≠ [] ∧ resume = r.resume) ∨ (x.phase = .gap ∧ x.gap ≠ [] ∧ resume = r.resume) ∨
        (x.phase = .header ∧ x.header ≠ [] ∧ resume = some (r.resume.getD 0)) ∨
        (x.phase = .body ∧ x.bodyPos < (readVersion s r).text.length ∧
          resume = some (if g.char = houseNL ∧ g.phase = .body then x.bodyPos else x.lineStart)) →
    ∃ u, exec (.characterSent c) s = .next (atOnce u) ∧ OnlyCircuit c s u ∧
      u.circuits[c].queue = s.circuits[c].queue.eraseIdx i ∧
      u.circuits[c].sender.chain = x.chain ++
        [{ r with resume := resume, composed := if resume = none then some x.header else none }] ∧
      u.circuits[c].sender.carried = .record b ∧ u.circuits[c].sender.state = .carrying ∧
      u.circuits[c].sender.phase = .lead ∧ u.circuits[c].sender.breakPending = false ∧
      u.circuits[c].sender.breaksIn = min (x.breaksIn + 1) 65535 ∧ u.circuits[c].sender.column = columnAfter g x) ∧
  ∀ (s : State) (r : Rec) (f : RecRef) (p : Bool) (x y : Sender), r.ref = some f → y = beginRecord s r p x →
    ∀ prelude, prelude = (if p then (if x.column = 0 then [] else [houseNL]) ++ txt "== BREAK ==" ++ [houseNL] else []) →
    y.carried = .record r ∧ y.state = .carrying ∧
    (r.resume = none → y.lead = prelude ∧ y.gap = gapLine r.gap ∧ y.bodyPos = 0 ∧
      (∀ h, r.composed = some h → y.header = h) ∧ (r.composed = none → y.header = headerLine s f r)) ∧
    ∀ o, r.resume = some o → y.lead = prelude ++ (txt "== RESUME " ++ (match s.slots[f.slot].key with
        | some k => keyTok k
        | none => []) ++ txt " T" ++ decimal f.take ++ txt " ==" ++ [houseNL]) ∧
      y.gap = [] ∧ y.header = [] ∧ y.bodyPos = o ∧ y.lineStart = o

/-- R122, R123, R135, R150, R152: at the next character-sent event the sender of a detached record enters CUT; when the line it was told to
print has been sent, the record returns to the pool, lowering no slot's count, and the sender asks for a selection. A close
that ends after a body line hands its record back to the head of the queue with the offset of the next line, and the sender
pauses, or begins at once what it may. That it begins without pausing first, so that a run-on of 0 stops no motor that has
work, is the model's choice (notes/assumptions/9.md). -/
def Obligations.CutsAndClosesEnd : Prop :=
  (∀ (s : State) (c : CircuitNo) (r : Rec) (g : Sending) (x : Sender), x = s.circuits[c].sender → s.resetLow = false →
    x.sending = some g → x.carried = .record r → r.ref = none → x.state = .carrying ∨ x.state = .closing →
    (x.phase ≠ .cut → ∃ u, exec (.characterSent c) s = .next (atOnce u) ∧ OnlyCircuit c s u ∧
      u.circuits[c].sender.phase = .cut ∧ u.circuits[c].sender.breakPending = false ∧
      u.circuits[c].sender.carried = .record r ∧ u.circuits[c].queue = s.circuits[c].queue) ∧
    (x.phase = .cut → x.tail = [] →
      ∀ m, m = modSender { s with freeCount := s.freeCount + 1 } c (fun y =>
        { y.bare with column := columnAfter g y }) →
      ∃ u, exec (.characterSent c) s = .next (atOnce u) ∧ CircuitChanged c (Selected m c) m u)) ∧
  (∀ (s : State) (c : CircuitNo) (r : Rec) (f : RecRef) (g : Sending) (x : Sender), x = s.circuits[c].sender →
    s.resetLow = false → x.sending = some g → g.char = houseNL → g.phase = .body → x.carried = .record r →
    r.ref = some f → f.version = .current → x.state = .closing → x.phase = .body →
    x.bodyPos < (readVersion s r).text.length →
    (∀ y ∈ s.circuits[c].queue, ¬(ofTake f.slot f.take y = true ∧ y.kind = r.kind)) →
    ∀ m, m = modCircuit s c (fun y => { y with
      queue := { r with resume := some x.bodyPos, composed := none } :: y.queue, sender := { y.sender.bare with column := 0 } }) →
    ∃ u, exec (.characterSent c) s = .next (atOnce u) ∧ CircuitChanged c (Selected m c) m u)

/-! ### Reports, modes and the restart -/

/-- R144, R145, R173, R184: a character has been sent of a report. The next one is taken, or a fold NL before it. After the last
one the report leaves the buffer, the owed alerts are composed into the room in priority order, and the sender of the report
circuit asks for a selection. A report that its sender was told to cut is cut at the next character, and when the line has
been printed the sender asks for a selection, the report staying in the buffer. -/
def Obligations.ReportsFinishAndAreCut : Prop :=
  ∀ (s : State) (c : CircuitNo) (g : Sending) (x : Sender), x = s.circuits[c].sender → s.resetLow = false →
    x.sending = some g → g.phase ≠ .body → x.carried = .report → x.state = .carrying →
    ∀ (col : Nat) (first : Text), col = columnAfter g x → first = s.mgmt.reports.headD [] →
    (∀ h, x.phase = .report → x.cutTold = none → first[x.reportPos]? = some h →
      (isAdvancing h = true → col = s.circuits[c].desc.carriage →
        exec (.characterSent c) s = .next (atOnce (modSender s c fun y => { y with
          column := col
          belief := (groupOf s c y.belief houseNL).2
          sending := some { char := houseNL, phase := .report, codes := (groupOf s c y.belief houseNL).1 } }))) ∧
      (¬(isAdvancing h = true ∧ col = s.circuits[c].desc.carriage) →
        exec (.characterSent c) s = .next (atOnce (modSender s c fun y => { y with
          column := col
          reportPos := y.reportPos + 1
          belief := (groupOf s c y.belief h).2
          sending := some { char := h, phase := .report, codes := (groupOf s c y.belief h).1 } })))) ∧
    (x.phase = .report → x.cutTold = none → first.length ≤ x.reportPos → s.mgmt.reportCircuit = c →
      s.mgmt.reports.length ≤ 8 →
      ∀ due room, due = allKinds.filter (fun k => (entryOf s k).owed) → room = 8 - s.mgmt.reports.tail.length →
      ∃ u, exec (.characterSent c) s = .next (atOnce u) ∧
        (∀ k, entryOf u k = if k ∈ due.take room then { entryOf s k with owed := false } else entryOf s k) ∧
        u.latch.alertMode = s.latch.alertMode ∧
        ∀ m, m = modSender { s with
            latch := u.latch
            mgmt := { s.mgmt with
              reports := s.mgmt.reports.tail ++ ((due.take room).map fun k => alertText k (entryOf s k)) } } c
          (fun y => { y.bare with column := col }) →
        CircuitChanged c (Selected m c) m u) ∧
    (∀ line, x.phase = .report → x.cutTold = some line →
      ∃ u, exec (.characterSent c) s = .next (atOnce u) ∧ OnlyCircuit c s u ∧ u.circuits[c].sender.phase = .cut ∧
        u.circuits[c].sender.carried = .report ∧ u.circuits[c].sender.state = .carrying ∧
        u.circuits[c].sender.column = col ∧
        (∀ q, u.circuits[c].sender.sending = some q → q.phase = .cut ∧
          (col ≠ 0 → q.char = houseNL ∧ u.circuits[c].sender.tail = cutLineText line))) ∧
    (x.phase = .cut → x.tail = [] →
      ∀ m, m = modSender s c (fun y => { y.bare with column := col }) →
      ∃ u, exec (.characterSent c) s = .next (atOnce u) ∧ CircuitChanged c (Selected m c) m u)

/-- R175: REPORTTO. Naming the report circuit changes nothing; naming another moves the reports there: the old circuit is told
to cut a report it carries and that its withholding has widened, and the new one is offered work. That the old circuit
is told whatever its degree is notes/assumptions/24.md. -/
def Obligations.ReportToMovesTheReports : Prop :=
  ∀ (s : State) (t : Text), serves s "REPORTTO" 3 [t] →
    (circuitForm t = none → RefusedWith (.reportto [t]) s "REPORTTO" .form) ∧
    ∀ n, circuitForm t = some n →
      (16 ≤ n → RefusedWith (.reportto [t]) s "REPORTTO" .range) ∧
      ∀ c old : CircuitNo, c.val = n → old = s.mgmt.reportCircuit →
        ∃ u, DoneWith (.reportto [t]) s "REPORTTO" [circuitTok old, circuitTok c] (atOnce u) ∧
          (c = old → u = popLine s) ∧
          (c ≠ old → ∀ m, m = modMgmt (popLine s) (fun g => { g with reportCircuit := c }) →
            { u with circuits := s.circuits } = m ∧ (∀ d : CircuitNo, d ≠ c → d ≠ old → u.circuits[d] = s.circuits[d]) ∧
            Offered m c s.circuits[c] u.circuits[c] ∧
            u.circuits[old] = withheldMore m old { s.circuits[old] with
              sender := if s.circuits[old].sender.carried = .report ∧ s.circuits[old].sender.phase = .report then
                { s.circuits[old].sender with cutTold := some .storeCut } else s.circuits[old].sender })

/-- R193, R194, R197, R200, R201: a circuit's degree of withholding and what is eligible at each. QUIET, FULL and REDUCED change
the mode state, and every sender whose degree has changed is told; where the mode asked for stands already, QUIET and FULL
are answered KEPT. -/
def Obligations.ModeRequestsTellTheSenders : Prop :=
  (∀ (m : Mode) (c : CircuitNo) (x : Machine.Class),
    (m.quiet = true → degree m c = .wholly) ∧
    (m.quiet = false → (m.service = .full ∨ m.windowFirst ≤ c ∧ c ≤ m.windowLast) → degree m c = .notWithheld) ∧
    (m.quiet = false → m.service = .reduced → ¬(m.windowFirst ≤ c ∧ c ≤ m.windowLast) → degree m c = .exceptFlash) ∧
    eligible .notWithheld x = true ∧ (eligible .exceptFlash x = true ↔ x = .flash) ∧ eligible .wholly x = false) ∧
  (∀ s : State,
    (serves s "QUIET" 2 [] →
      (s.mode.quiet = true → KeptWith (.quiet []) s "QUIET" [txt "ON"]) ∧
      (s.mode.quiet = false → ∃ u, DoneWith (.quiet []) s "QUIET" [txt "OFF", txt "ON"] (atOnce u) ∧
        ModeChanged { s.mode with quiet := true } (popLine s) u)) ∧
    (serves s "FULL" 2 [] →
      (s.mode.service = .full → KeptWith (.full []) s "FULL" [txt "FULL"]) ∧
      (s.mode.service = .reduced → ∃ u, DoneWith (.full []) s "FULL" [txt "REDUCED", txt "FULL"] (atOnce u) ∧
        ModeChanged { s.mode with service := .full } (popLine s) u)) ∧
    (∀ ta tb : Text, serves s "REDUCED" 2 [ta, tb] →
      (circuitForm ta = none ∨ circuitForm tb = none → RefusedWith (.reduced [ta, tb]) s "REDUCED" .form) ∧
      ∀ i j, circuitForm ta = some i → circuitForm tb = some j →
        (16 ≤ i ∨ 16 ≤ j ∨ j < i → RefusedWith (.reduced [ta, tb]) s "REDUCED" .range) ∧
        ∀ a b : CircuitNo, a.val = i → b.val = j → a ≤ b →
          ∃ u, DoneWith (.reduced [ta, tb]) s "REDUCED"
              [serviceTok s.mode.service, windowTok s.mode.windowFirst s.mode.windowLast, txt "REDUCED", windowTok a b]
              (atOnce u) ∧
            ModeChanged { s.mode with service := .reduced, windowFirst := a, windowLast := b } (popLine s) u))

/-- R14, R154, R198, R199: WAKE. Awake, it is answered KEPT. Quiet, it runs the table check, which puts the lines and circuits in
service whose bank is unloaded or does not match out of service, sets the two flags and raises CHECK_FAILED if one failed;
then it sets quiet off and tells the senders. A line put out rests, its message ended as at a break: a take being filled is
stored cut. A circuit put out rests, its sender STOPPED whatever its state was; its records return to the pool and are
counted missed, but for a detached one, DELIVERY_MISSED being latched; reports stay in the buffer. What the framer's other
fields stand at is notes/assumptions/23.md. -/
def Obligations.WakeChecksTheTables : Prop :=
  ∀ s : State, serves s "WAKE" 2 [] →
    (s.mode.quiet = false → KeptWith (.wake []) s "WAKE" [txt "OFF"]) ∧
    (s.mode.quiet = true →
      ∀ lineLoaded lineMatched : Line → Bool, lineLoaded = (fun x => s.banks[x.desc.bank].loaded) →
      lineMatched = (fun x => kindMatches x.desc.width s.banks[x.desc.bank].kind) →
      ∀ circuitLoaded circuitMatched : Circuit → Bool, circuitLoaded = (fun x => s.banks[x.desc.bank].loaded) →
      circuitMatched = (fun x => kindMatches x.desc.width s.banks[x.desc.bank].kind) →
      ∀ lineGone : Line → Bool, lineGone = (fun x => lineInService x && !(lineLoaded x && lineMatched x)) →
      ∀ circuitGone : Circuit → Bool,
        circuitGone = (fun x => circuitInService x && !(circuitLoaded x && circuitMatched x)) →
      ∃ a u lf cf, DoneWith (.wake []) s "WAKE" [checkTok lf, checkTok cf] (atOnce u) ∧
        ModeChanged { s.mode with quiet := false, loadedFlag := lf, consistentFlag := cf } a u ∧
        a.mode = { s.mode with loadedFlag := lf, consistentFlag := cf } ∧
        (∀ l : LineNo, a.lines[l] =
          if lineGone s.lines[l] then { s.lines[l] with
            outOfService := true, receiver := { state := .idle, breakWatch := none, markingInterval := none }
            shift := .letters, silence := none, framer := Framer.reset }
          else s.lines[l]) ∧
        (∀ (l : LineNo) (n : SlotNo) (t : TakeNo) (k : Take), FramersSound s → lineGone s.lines[l] = true →
          s.lines[l].framer.state = .copyBody → s.lines[l].framer.takeRef = some (n, t) → takeAt s n t = some k →
          StoredCut n t s.lines[l].framer k a) ∧
        (∀ c : CircuitNo, a.circuits[c].desc = s.circuits[c].desc ∧ a.circuits[c].outOfService =
          (s.circuits[c].outOfService || circuitGone s.circuits[c]) ∧
          (circuitGone s.circuits[c] = true → CircuitOut a.circuits[c] ∧ u.circuits[c] = a.circuits[c])) ∧
        s.mgmt.reports <+: a.mgmt.reports ∧
        ((∀ l : LineNo, lineGone s.lines[l] = false) →
          a.recency = s.recency ∧ (∀ n : SlotNo, slotCore a.slots[n] = slotCore s.slots[n]) ∧
          (IdleCarriesNothing s → WaitingAreNamed s →
            (∀ c : CircuitNo, circuitGone s.circuits[c] = true → s.circuits[c].sender.missed ≤ 65535 →
              a.circuits[c].sender.missed = min (s.circuits[c].sender.missed + missedBy s.circuits[c]) 65535) ∧
            a.freeCount = s.freeCount + ((List.finRange 16).map fun c =>
              if circuitGone s.circuits[c] then recordsOn (fun _ => true) s.circuits[c] else 0).sum) ∧
          (∀ (c : CircuitNo) (r : Rec) (y : Key), circuitGone s.circuits[c] = true → StandsOn r s.circuits[c] →
            keyOfRecord s r = some y → (entryOf a .deliveryMissed).latched = true) ∧
          (s.latch.alertMode = false → a.mgmt = (popLine s).mgmt ∧
            ∀ c : CircuitNo, circuitGone s.circuits[c] = false → a.circuits[c] = s.circuits[c])) ∧
        (lf = .passed ∨ lf = .failed) ∧ (cf = .passed ∨ cf = .failed) ∧
        (lf = .passed ↔ (∀ l : LineNo, lineInService s.lines[l] = true → lineLoaded s.lines[l] = true) ∧
          ∀ c : CircuitNo, circuitInService s.circuits[c] = true → circuitLoaded s.circuits[c] = true) ∧
        (cf = .passed ↔ (∀ l : LineNo, lineInService s.lines[l] = true → lineMatched s.lines[l] = true) ∧
          (∀ c : CircuitNo, circuitInService s.circuits[c] = true → circuitMatched s.circuits[c] = true) ∧
          circuitInService a.circuits[s.mgmt.reportCircuit] = true) ∧
        (lf = .failed ∨ cf = .failed → Occurred .checkFailed (.flags lf cf) s a) ∧
        (lf = .passed → cf = .passed →
          a = { popLine s with mode := { s.mode with loadedFlag := lf, consistentFlag := cf } }) ∧
        a.banks = s.banks ∧ a.routes = s.routes ∧ a.precedence = s.precedence ∧ a.takeWait = s.takeWait)

/-- R169, R171, R172, R178, R202: an accepted RESTART waits for the end of its message; there the part is left as the manual's
table of the restart says. The reply is closed and placed as the newest report if there is room, and otherwise dropped with
REPORT_DROPPED; and the buffer is released. -/
def Obligations.ExecutionEndsWithTheReply : Prop :=
  (∀ s : State, serves s "RESTART" 3 [] →
    DoneWith (.restart []) s "RESTART" [] (modMgmt (popLine s) fun m => { m with restartDue := true })) ∧
  ∀ (s : State) (r : Reply), s.resetLow = false → s.mgmt.buffer = .executing → s.mgmt.lines = [] →
    s.mgmt.reply = some r →
    ∀ m, m = (if s.mgmt.restartDue then afterRestart s else s) →
    ∀ text, text = r.text ++ (if r.omitted = 0 then [] else txt "OMITTED " ++ decimal r.omitted ++ [houseNL]) ++
      txt "//E" ++ [houseNL] →
    ∃ u, exec .executionEnds s = .next (atOnce u) ∧
      (m.mgmt.reports.length < 8 →
        u.mgmt = { m.mgmt.released with reports := m.mgmt.reports ++ [text] } ∧
        ReportPlaced text m { u with mgmt := { m.mgmt with reports := m.mgmt.reports ++ [text] } }) ∧
      (8 ≤ m.mgmt.reports.length → u.mgmt = m.mgmt.released ∧ Occurred .reportDropped .none m u ∧
        u.circuits = m.circuits ∧ u.lines = m.lines ∧ u.slots = m.slots)

/-! ### The event latch and the counters -/

/-- R182, R185: EVENTS gives out and clears the latched, unmasked kind of highest priority, or answers NONE, and is refused
MODE in alert mode; CLEAREVENT clears the kind named, in both modes. A mask stays as it is. -/
def Obligations.EventsAreGivenOutByPriority : Prop :=
  ∀ (s : State) (cleared : EventKind → State), cleared = (fun k => { popLine s with
      latch := { s.latch with
        entries := put s.latch.entries (kindIdx k)
          { latched := false, detail := none, count := 0, masked := (entryOf s k).masked, owed := false } } }) →
    (serves s "EVENTS" 1 [] →
      (s.latch.alertMode = true → RefusedWith (.events []) s "EVENTS" .mode) ∧
      (s.latch.alertMode = false →
        ((∀ k, ¬((entryOf s k).latched = true ∧ (entryOf s k).masked = false)) →
          DoneWith (.events []) s "EVENTS" [txt "NONE"] (popLine s)) ∧
        ∀ k, (entryOf s k).latched = true → (entryOf s k).masked = false →
          (∀ j, kindIdx j < kindIdx k → ¬((entryOf s j).latched = true ∧ (entryOf s j).masked = false)) →
          (∀ d, (entryOf s k).detail = some d →
            DoneWith (.events []) s "EVENTS" (eventTok k :: detailToks d ++ [decimal (entryOf s k).count]) (cleared k)))) ∧
    (∀ t, serves s "CLEAREVENT" 2 [t] →
      ((∀ k, eventTok k ≠ t) → RefusedWith (.clearevent [t]) s "CLEAREVENT" .form) ∧
      ∀ k, eventTok k = t →
        DoneWith (.clearevent [t]) s "CLEAREVENT" [decimal (entryOf s k).count] (cleared k))

/-- R183, R184, R186, R187: MASK ON clears the owed mark; MASK OFF, in alert mode on a latched kind, makes its alert fall due:
it is placed if the report buffer has room, and the kind is owed otherwise. ALERTS ON, from OFF, places the alerts of the
latched, unmasked kinds in priority order while there is room and marks the rest owed; OFF, from ON, clears every owed mark.
A mask or a mode that stays as it was changes nothing. -/
def Obligations.MasksAndAlertsAreSet : Prop :=
  (∀ (s : State) (t ot : Text), serves s "MASK" 2 [t, ot] →
    ((∀ k, eventTok k ≠ t) ∨ onOffForm ot = none → RefusedWith (.mask [t, ot]) s "MASK" .form) ∧
    ∀ k on, eventTok k = t → onOffForm ot = some on →
      ∃ u, DoneWith (.mask [t, ot]) s "MASK" [onOffTok (entryOf s k).masked, onOffTok on] (atOnce u) ∧
        ((entryOf s k).masked = on → u = popLine s) ∧
        ((entryOf s k).masked = false → on = true →
          u = modEntry (popLine s) k fun e => { e with masked := true, owed := false }) ∧
        ((entryOf s k).masked = true → on = false →
          ∀ m, m = modEntry (popLine s) k (fun e => { e with masked := false }) →
          (s.latch.alertMode = false ∨ (entryOf s k).latched = false → u = m) ∧
          (s.latch.alertMode = true → (entryOf s k).latched = true →
            (s.mgmt.reports.length < 8 → ReportPlaced (alertText k (entryOf s k)) m u) ∧
            (8 ≤ s.mgmt.reports.length →
              u = modEntry (popLine s) k fun e => { e with masked := false, owed := true })))) ∧
  (∀ (s : State) (ot : Text), serves s "ALERTS" 2 [ot] →
    (onOffForm ot = none → RefusedWith (.alerts [ot]) s "ALERTS" .form) ∧
    ∀ on, onOffForm ot = some on →
      ∃ u, DoneWith (.alerts [ot]) s "ALERTS" [onOffTok s.latch.alertMode, onOffTok on] (atOnce u) ∧
        (s.latch.alertMode = on → u = popLine s) ∧
        (s.latch.alertMode = true → on = false → u = { popLine s with
          latch := { entries := mapAll s.latch.entries fun e => { e with owed := false }, alertMode := false } }) ∧
        (s.latch.alertMode = false → on = true → s.mgmt.reports.length ≤ 8 →
          ∀ due, due = allKinds.filter (fun k => (entryOf s k).latched && !(entryOf s k).masked) →
          u.mgmt = { (popLine s).mgmt with
            reports := s.mgmt.reports ++ ((due.take (8 - s.mgmt.reports.length)).map fun k => alertText k (entryOf s k)) } ∧
          u.latch.alertMode = true ∧
          (∀ k, entryOf u k = if k ∈ due.drop (8 - s.mgmt.reports.length) then { entryOf s k with owed := true }
            else entryOf s k) ∧
          u.lines = s.lines ∧ u.slots = s.slots ∧ u.banks = s.banks ∧ u.mode = s.mode ∧ u.freeCount = s.freeCount ∧
          ∀ c : CircuitNo, c ≠ s.mgmt.reportCircuit → u.circuits[c] = s.circuits[c]))

/-! ### Invariants -/

/-- Every step keeps the tables, the limits and the buffers within the manual's ranges, the counters at or below their tops, and
the latch sound (R179): a clear kind without detail and count, a kind owed only while it is latched, unmasked and the alert
mode is ON. -/
def Obligations.RangesAndLatchAreKept : Prop :=
  ((∀ s t, TablesSound s → step s = .next t → TablesSound t) ∧ ∀ s t, CountersSound s → step s = .next t → CountersSound t) ∧
  (∀ s t, LatchSound s → step s = .next t → LatchSound t)

/-- R17, R58, R60, R61, R64, R83: every step keeps the slots sound: FREE slots hold nothing, no two stories have one key, at
most 32 slots are held, and the recency list holds each slot once. Every step also keeps the framers and the store in
agreement: a framer's take reference names a take that is being filled by its line. -/
def Obligations.TheSlotsStaySound : Prop :=
  (∀ s t, SlotsSound s → step s = .next t → SlotsSound t) ∧
    ∀ s t, SlotsSound s → FramersSound s → step s = .next t → FramersSound t

/-- R110: every step keeps the free, queued, carried and suspended records together at 192. -/
def Obligations.ThePoolIsConserved : Prop := ∀ s t, PoolSound s → step s = .next t → PoolSound t

/-- R62: every step keeps each slot's pending count at the number of records that name it. -/
def Obligations.PendingCountsAreExact : Prop := ∀ s t, PendingSound s → step s = .next t → PendingSound t

/-- R76: every step keeps each superseded version's reader count at the number of carried and suspended records that read it,
at least one, lets no record read a superseded version that is not there, no queued record read one at all, and only a
carried record be detached (R150). The pending
counts, which keep a slot from being freed under a record, are the premise, and PendingCountsAreExact keeps them. -/
def Obligations.SupersededReadersAreExact : Prop :=
  ∀ s t, PendingSound s → ReadersSound s → step s = .next t → ReadersSound t

/-- R59, R60, R76: every step keeps each slot's block map exact: a block is in use exactly if it stands in a version of one of
the slot's takes, in one only; a version has a block for each 64 characters begun. -/
def Obligations.BlocksStandInOneVersion : Prop := ∀ s t, VersionsSound s → step s = .next t → VersionsSound t

/-- R148: every step keeps each suspension chain at no more than two records in the order of their classes, below what is
carried. -/
def Obligations.ChainsStayOrdered : Prop := ∀ s t, ChainsSound s → step s = .next t → ChainsSound t

/-- R132, R138: every step keeps each column within its carriage width and at 0 while the sender is STOPPED, and each motor on
exactly while its sender is not STOPPED. -/
def Obligations.SendersStaySound : Prop := ∀ s t, SendersSound s → step s = .next t → SendersSound t

/-- After reset every invariant holds. -/
def Obligations.InvariantsHoldAfterReset : Prop :=
  TablesSound State.reset ∧ CountersSound State.reset ∧ LatchSound State.reset ∧ SlotsSound State.reset ∧
    FramersSound State.reset ∧
    PoolSound State.reset ∧ PendingSound State.reset ∧ ReadersSound State.reset ∧ VersionsSound State.reset ∧
    ChainsSound State.reset ∧ SendersSound State.reset

/-! ### Encoding -/

/-- R162, R167: the line of a well-formed request, collected character by character and ended, is the next request line, and
read as tokens it is the verb and the operands again. -/
def Obligations.RequestLinesReadBack : Prop :=
  ∀ (i : Instr) (v : Text) (ops : List Text) (m : Mgmt), i.wellFormed = true → i.request? = some (v, ops) →
    m.collecting = [] → m.tooLong = false → m.lines.length < 16 →
    tokens (requestLine v ops) = v :: ops ∧
      endRequestLine ((requestLine v ops).foldl (fun m h => collectChar h m) m) =
        { m with lines := m.lines ++ [requestLine v ops] }

/-- R204: what a reply writes of a line, a circuit, a bank, a key, a class, a rate set, a circuit set or a number is read back
as the same when it is typed as an operand. -/
def Obligations.ResultsReadBackAsOperands : Prop :=
  (∀ n : Nat, number? (decimal n) = some n) ∧
  (∀ l : LineNo, lineForm (lineTok l) = some l.val) ∧
  (∀ c : CircuitNo, circuitForm (circuitTok c) = some c.val) ∧
  (∀ b : BankNo, bankForm (bankTok b) = some b.val) ∧
  (∀ k : Key, keyForm (keyTok k) = some k) ∧
  (∀ c : Machine.Class, classForm [classLetter c] = some c) ∧
  (∀ r : RateSet, rateSetForm (rateSetTok r) = some r) ∧
  ∀ r : CircuitSet, (listForm circuitForm (circuitSetTok r)).map (fun l => (forms (below? 16) l).map Sys2Proof.setOf) = some (some r)
end

