-- ==== Sys2Proof/Laws/State.lean ====
section
/-!
SUPPORT. Laws/State.lean: what the named updates leave and change, field by field, and reading the arrays they write. A
proof about a meaning cites these and unfolds no record update.
-/
namespace Sys2Proof

variable {α β : Type} {n : Nat}

theorem put_same (v : Vector α n) (i : Fin n) (x : α) : (put v i x)[i] = x := by simp [put]

@[simp] theorem put_same_val (v : Vector α n) (i : Fin n) (x : α) : (put v i x)[i.val] = x := put_same v i x

theorem put_other (v : Vector α n) {i j : Fin n} (x : α) (h : j ≠ i) : (put v i x)[j] = v[j] := by
  have h' : (i : Nat) ≠ (j : Nat) := fun e => h (Fin.ext e.symm)
  simp [put, Vector.getElem_set_ne _ _ h']

theorem modAt_same (v : Vector α n) (i : Fin n) (f : α → α) : (modAt v i f)[i] = f v[i] := put_same v i _

@[simp] theorem modAt_same_val (v : Vector α n) (i : Fin n) (f : α → α) : (modAt v i f)[i.val] = f v[i] :=
  modAt_same v i f

theorem modAt_other (v : Vector α n) {i j : Fin n} (f : α → α) (h : j ≠ i) : (modAt v i f)[j] = v[j] :=
  put_other v _ h

/-- Either place of an updated array. -/
theorem modAt_get (v : Vector α n) (i j : Fin n) (f : α → α) :
    (modAt v i f)[j] = if j = i then f v[j] else v[j] := by
  split
  · next h => subst h; exact modAt_same v j f
  · next h => exact modAt_other v f h

/-- What `f` leaves alone in every member, an update leaves alone everywhere. -/
theorem modAt_keeps {γ : Type} (v : Vector α n) (i j : Fin n) (f : α → α) (g : α → γ)
    (h : ∀ x, g (f x) = g x) : g (modAt v i f)[j] = g v[j] := by
  rw [modAt_get]
  split
  · exact h _
  · rfl

theorem tabulate_get (f : Fin n → α) (i : Fin n) : (tabulate n f)[i] = f i := by simp [tabulate]

@[simp] theorem tabulate_get_val (f : Fin n → α) (i : Fin n) : (tabulate n f)[i.val] = f i := tabulate_get f i

theorem mapAll_get (v : Vector α n) (f : α → β) (i : Fin n) : (mapAll v f)[i] = f v[i] := tabulate_get _ i

@[simp] theorem mapAll_get_val (v : Vector α n) (f : α → β) (i : Fin n) : (mapAll v f)[i.val] = f v[i] :=
  mapAll_get v f i

/-- Arrays with the same members are the same. -/
theorem array_ext {v w : Vector α n} (h : ∀ i : Fin n, v[i] = w[i]) : v = w := by
  apply Vector.ext
  intro i hi
  exact h ⟨i, hi⟩

theorem modAt_id (v : Vector α n) (i : Fin n) (f : α → α) (h : f v[i] = v[i]) : modAt v i f = v := by
  apply array_ext
  intro j
  rw [modAt_get]
  split
  · next e => subst e; exact h
  · rfl

end Sys2Proof

namespace Sys2Proof.Machine

open Sys2Proof

/-! ### modLine -/

@[simp] theorem modLine_resetLow (s : State) (l : LineNo) (f : Line → Line) :
    (modLine s l f).resetLow = s.resetLow := rfl
@[simp] theorem modLine_lines (s : State) (l : LineNo) (f : Line → Line) :
    (modLine s l f).lines = modAt s.lines l f := rfl
@[simp] theorem modLine_banks (s : State) (l : LineNo) (f : Line → Line) : (modLine s l f).banks = s.banks := rfl
@[simp] theorem modLine_slots (s : State) (l : LineNo) (f : Line → Line) : (modLine s l f).slots = s.slots := rfl
@[simp] theorem modLine_recency (s : State) (l : LineNo) (f : Line → Line) :
    (modLine s l f).recency = s.recency := rfl
@[simp] theorem modLine_takeWait (s : State) (l : LineNo) (f : Line → Line) :
    (modLine s l f).takeWait = s.takeWait := rfl
@[simp] theorem modLine_routes (s : State) (l : LineNo) (f : Line → Line) : (modLine s l f).routes = s.routes := rfl
@[simp] theorem modLine_defaultSet (s : State) (l : LineNo) (f : Line → Line) :
    (modLine s l f).defaultSet = s.defaultSet := rfl
@[simp] theorem modLine_flashSet (s : State) (l : LineNo) (f : Line → Line) :
    (modLine s l f).flashSet = s.flashSet := rfl
@[simp] theorem modLine_precedence (s : State) (l : LineNo) (f : Line → Line) :
    (modLine s l f).precedence = s.precedence := rfl
@[simp] theorem modLine_freeCount (s : State) (l : LineNo) (f : Line → Line) :
    (modLine s l f).freeCount = s.freeCount := rfl
@[simp] theorem modLine_circuits (s : State) (l : LineNo) (f : Line → Line) :
    (modLine s l f).circuits = s.circuits := rfl
@[simp] theorem modLine_mgmt (s : State) (l : LineNo) (f : Line → Line) : (modLine s l f).mgmt = s.mgmt := rfl
@[simp] theorem modLine_mode (s : State) (l : LineNo) (f : Line → Line) : (modLine s l f).mode = s.mode := rfl
@[simp] theorem modLine_latch (s : State) (l : LineNo) (f : Line → Line) : (modLine s l f).latch = s.latch := rfl
@[simp] theorem modLine_pending (s : State) (l : LineNo) (f : Line → Line) :
    (modLine s l f).pending = s.pending := rfl
@[simp] theorem modLine_meanwhile (s : State) (l : LineNo) (f : Line → Line) :
    (modLine s l f).meanwhile = s.meanwhile := rfl

/-! ### modCircuit -/

@[simp] theorem modCircuit_resetLow (s : State) (c : CircuitNo) (f : Circuit → Circuit) :
    (modCircuit s c f).resetLow = s.resetLow := rfl
@[simp] theorem modCircuit_lines (s : State) (c : CircuitNo) (f : Circuit → Circuit) :
    (modCircuit s c f).lines = s.lines := rfl
@[simp] theorem modCircuit_banks (s : State) (c : CircuitNo) (f : Circuit → Circuit) :
    (modCircuit s c f).banks = s.banks := rfl
@[simp] theorem modCircuit_slots (s : State) (c : CircuitNo) (f : Circuit → Circuit) :
    (modCircuit s c f).slots = s.slots := rfl
@[simp] theorem modCircuit_recency (s : State) (c : CircuitNo) (f : Circuit → Circuit) :
    (modCircuit s c f).recency = s.recency := rfl
@[simp] theorem modCircuit_takeWait (s : State) (c : CircuitNo) (f : Circuit → Circuit) :
    (modCircuit s c f).takeWait = s.takeWait := rfl
@[simp] theorem modCircuit_routes (s : State) (c : CircuitNo) (f : Circuit → Circuit) :
    (modCircuit s c f).routes = s.routes := rfl
@[simp] theorem modCircuit_defaultSet (s : State) (c : CircuitNo) (f : Circuit → Circuit) :
    (modCircuit s c f).defaultSet = s.defaultSet := rfl
@[simp] theorem modCircuit_flashSet (s : State) (c : CircuitNo) (f : Circuit → Circuit) :
    (modCircuit s c f).flashSet = s.flashSet := rfl
@[simp] theorem modCircuit_precedence (s : State) (c : CircuitNo) (f : Circuit → Circuit) :
    (modCircuit s c f).precedence = s.precedence := rfl
@[simp] theorem modCircuit_freeCount (s : State) (c : CircuitNo) (f : Circuit → Circuit) :
    (modCircuit s c f).freeCount = s.freeCount := rfl
@[simp] theorem modCircuit_circuits (s : State) (c : CircuitNo) (f : Circuit → Circuit) :
    (modCircuit s c f).circuits = modAt s.circuits c f := rfl
@[simp] theorem modCircuit_mgmt (s : State) (c : CircuitNo) (f : Circuit → Circuit) :
    (modCircuit s c f).mgmt = s.mgmt := rfl
@[simp] theorem modCircuit_mode (s : State) (c : CircuitNo) (f : Circuit → Circuit) :
    (modCircuit s c f).mode = s.mode := rfl
@[simp] theorem modCircuit_latch (s : State) (c : CircuitNo) (f : Circuit → Circuit) :
    (modCircuit s c f).latch = s.latch := rfl
@[simp] theorem modCircuit_pending (s : State) (c : CircuitNo) (f : Circuit → Circuit) :
    (modCircuit s c f).pending = s.pending := rfl
@[simp] theorem modCircuit_meanwhile (s : State) (c : CircuitNo) (f : Circuit → Circuit) :
    (modCircuit s c f).meanwhile = s.meanwhile := rfl

/-! ### modSlot -/

@[simp] theorem modSlot_resetLow (s : State) (n : SlotNo) (f : Slot → Slot) :
    (modSlot s n f).resetLow = s.resetLow := rfl
@[simp] theorem modSlot_lines (s : State) (n : SlotNo) (f : Slot → Slot) : (modSlot s n f).lines = s.lines := rfl
@[simp] theorem modSlot_banks (s : State) (n : SlotNo) (f : Slot → Slot) : (modSlot s n f).banks = s.banks := rfl
@[simp] theorem modSlot_slots (s : State) (n : SlotNo) (f : Slot → Slot) :
    (modSlot s n f).slots = modAt s.slots n f := rfl
@[simp] theorem modSlot_recency (s : State) (n : SlotNo) (f : Slot → Slot) :
    (modSlot s n f).recency = s.recency := rfl
@[simp] theorem modSlot_takeWait (s : State) (n : SlotNo) (f : Slot → Slot) :
    (modSlot s n f).takeWait = s.takeWait := rfl
@[simp] theorem modSlot_routes (s : State) (n : SlotNo) (f : Slot → Slot) : (modSlot s n f).routes = s.routes := rfl
@[simp] theorem modSlot_defaultSet (s : State) (n : SlotNo) (f : Slot → Slot) :
    (modSlot s n f).defaultSet = s.defaultSet := rfl
@[simp] theorem modSlot_flashSet (s : State) (n : SlotNo) (f : Slot → Slot) :
    (modSlot s n f).flashSet = s.flashSet := rfl
@[simp] theorem modSlot_precedence (s : State) (n : SlotNo) (f : Slot → Slot) :
    (modSlot s n f).precedence = s.precedence := rfl
@[simp] theorem modSlot_freeCount (s : State) (n : SlotNo) (f : Slot → Slot) :
    (modSlot s n f).freeCount = s.freeCount := rfl
@[simp] theorem modSlot_circuits (s : State) (n : SlotNo) (f : Slot → Slot) :
    (modSlot s n f).circuits = s.circuits := rfl
@[simp] theorem modSlot_mgmt (s : State) (n : SlotNo) (f : Slot → Slot) : (modSlot s n f).mgmt = s.mgmt := rfl
@[simp] theorem modSlot_mode (s : State) (n : SlotNo) (f : Slot → Slot) : (modSlot s n f).mode = s.mode := rfl
@[simp] theorem modSlot_latch (s : State) (n : SlotNo) (f : Slot → Slot) : (modSlot s n f).latch = s.latch := rfl
@[simp] theorem modSlot_pending (s : State) (n : SlotNo) (f : Slot → Slot) :
    (modSlot s n f).pending = s.pending := rfl
@[simp] theorem modSlot_meanwhile (s : State) (n : SlotNo) (f : Slot → Slot) :
    (modSlot s n f).meanwhile = s.meanwhile := rfl

/-! ### modBank -/

@[simp] theorem modBank_resetLow (s : State) (b : BankNo) (f : Bank → Bank) :
    (modBank s b f).resetLow = s.resetLow := rfl
@[simp] theorem modBank_lines (s : State) (b : BankNo) (f : Bank → Bank) : (modBank s b f).lines = s.lines := rfl
@[simp] theorem modBank_banks (s : State) (b : BankNo) (f : Bank → Bank) :
    (modBank s b f).banks = modAt s.banks b f := rfl
@[simp] theorem modBank_slots (s : State) (b : BankNo) (f : Bank → Bank) : (modBank s b f).slots = s.slots := rfl
@[simp] theorem modBank_recency (s : State) (b : BankNo) (f : Bank → Bank) :
    (modBank s b f).recency = s.recency := rfl
@[simp] theorem modBank_takeWait (s : State) (b : BankNo) (f : Bank → Bank) :
    (modBank s b f).takeWait = s.takeWait := rfl
@[simp] theorem modBank_routes (s : State) (b : BankNo) (f : Bank → Bank) : (modBank s b f).routes = s.routes := rfl
@[simp] theorem modBank_defaultSet (s : State) (b : BankNo) (f : Bank → Bank) :
    (modBank s b f).defaultSet = s.defaultSet := rfl
@[simp] theorem modBank_flashSet (s : State) (b : BankNo) (f : Bank → Bank) :
    (modBank s b f).flashSet = s.flashSet := rfl
@[simp] theorem modBank_precedence (s : State) (b : BankNo) (f : Bank → Bank) :
    (modBank s b f).precedence = s.precedence := rfl
@[simp] theorem modBank_freeCount (s : State) (b : BankNo) (f : Bank → Bank) :
    (modBank s b f).freeCount = s.freeCount := rfl
@[simp] theorem modBank_circuits (s : State) (b : BankNo) (f : Bank → Bank) :
    (modBank s b f).circuits = s.circuits := rfl
@[simp] theorem modBank_mgmt (s : State) (b : BankNo) (f : Bank → Bank) : (modBank s b f).mgmt = s.mgmt := rfl
@[simp] theorem modBank_mode (s : State) (b : BankNo) (f : Bank → Bank) : (modBank s b f).mode = s.mode := rfl
@[simp] theorem modBank_latch (s : State) (b : BankNo) (f : Bank → Bank) : (modBank s b f).latch = s.latch := rfl
@[simp] theorem modBank_pending (s : State) (b : BankNo) (f : Bank → Bank) :
    (modBank s b f).pending = s.pending := rfl
@[simp] theorem modBank_meanwhile (s : State) (b : BankNo) (f : Bank → Bank) :
    (modBank s b f).meanwhile = s.meanwhile := rfl

/-! ### modMgmt -/

@[simp] theorem modMgmt_resetLow (s : State) (f : Mgmt → Mgmt) : (modMgmt s f).resetLow = s.resetLow := rfl
@[simp] theorem modMgmt_lines (s : State) (f : Mgmt → Mgmt) : (modMgmt s f).lines = s.lines := rfl
@[simp] theorem modMgmt_banks (s : State) (f : Mgmt → Mgmt) : (modMgmt s f).banks = s.banks := rfl
@[simp] theorem modMgmt_slots (s : State) (f : Mgmt → Mgmt) : (modMgmt s f).slots = s.slots := rfl
@[simp] theorem modMgmt_recency (s : State) (f : Mgmt → Mgmt) : (modMgmt s f).recency = s.recency := rfl
@[simp] theorem modMgmt_takeWait (s : State) (f : Mgmt → Mgmt) : (modMgmt s f).takeWait = s.takeWait := rfl
@[simp] theorem modMgmt_routes (s : State) (f : Mgmt → Mgmt) : (modMgmt s f).routes = s.routes := rfl
@[simp] theorem modMgmt_defaultSet (s : State) (f : Mgmt → Mgmt) : (modMgmt s f).defaultSet = s.defaultSet := rfl
@[simp] theorem modMgmt_flashSet (s : State) (f : Mgmt → Mgmt) : (modMgmt s f).flashSet = s.flashSet := rfl
@[simp] theorem modMgmt_precedence (s : State) (f : Mgmt → Mgmt) : (modMgmt s f).precedence = s.precedence := rfl
@[simp] theorem modMgmt_freeCount (s : State) (f : Mgmt → Mgmt) : (modMgmt s f).freeCount = s.freeCount := rfl
@[simp] theorem modMgmt_circuits (s : State) (f : Mgmt → Mgmt) : (modMgmt s f).circuits = s.circuits := rfl
@[simp] theorem modMgmt_mgmt (s : State) (f : Mgmt → Mgmt) : (modMgmt s f).mgmt = f s.mgmt := rfl
@[simp] theorem modMgmt_mode (s : State) (f : Mgmt → Mgmt) : (modMgmt s f).mode = s.mode := rfl
@[simp] theorem modMgmt_latch (s : State) (f : Mgmt → Mgmt) : (modMgmt s f).latch = s.latch := rfl
@[simp] theorem modMgmt_pending (s : State) (f : Mgmt → Mgmt) : (modMgmt s f).pending = s.pending := rfl
@[simp] theorem modMgmt_meanwhile (s : State) (f : Mgmt → Mgmt) : (modMgmt s f).meanwhile = s.meanwhile := rfl

/-! ### modReceiver -/

@[simp] theorem modReceiver_resetLow (s : State) (l : LineNo) (f : Receiver → Receiver) :
    (modReceiver s l f).resetLow = s.resetLow := rfl
@[simp] theorem modReceiver_lines (s : State) (l : LineNo) (f : Receiver → Receiver) :
    (modReceiver s l f).lines = modAt s.lines l fun x => { x with receiver := f x.receiver } := rfl
@[simp] theorem modReceiver_banks (s : State) (l : LineNo) (f : Receiver → Receiver) :
    (modReceiver s l f).banks = s.banks := rfl
@[simp] theorem modReceiver_slots (s : State) (l : LineNo) (f : Receiver → Receiver) :
    (modReceiver s l f).slots = s.slots := rfl
@[simp] theorem modReceiver_recency (s : State) (l : LineNo) (f : Receiver → Receiver) :
    (modReceiver s l f).recency = s.recency := rfl
@[simp] theorem modReceiver_takeWait (s : State) (l : LineNo) (f : Receiver → Receiver) :
    (modReceiver s l f).takeWait = s.takeWait := rfl
@[simp] theorem modReceiver_routes (s : State) (l : LineNo) (f : Receiver → Receiver) :
    (modReceiver s l f).routes = s.routes := rfl
@[simp] theorem modReceiver_defaultSet (s : State) (l : LineNo) (f : Receiver → Receiver) :
    (modReceiver s l f).defaultSet = s.defaultSet := rfl
@[simp] theorem modReceiver_flashSet (s : State) (l : LineNo) (f : Receiver → Receiver) :
    (modReceiver s l f).flashSet = s.flashSet := rfl
@[simp] theorem modReceiver_precedence (s : State) (l : LineNo) (f : Receiver → Receiver) :
    (modReceiver s l f).precedence = s.precedence := rfl
@[simp] theorem modReceiver_freeCount (s : State) (l : LineNo) (f : Receiver → Receiver) :
    (modReceiver s l f).freeCount = s.freeCount := rfl
@[simp] theorem modReceiver_circuits (s : State) (l : LineNo) (f : Receiver → Receiver) :
    (modReceiver s l f).circuits = s.circuits := rfl
@[simp] theorem modReceiver_mgmt (s : State) (l : LineNo) (f : Receiver → Receiver) :
    (modReceiver s l f).mgmt = s.mgmt := rfl
@[simp] theorem modReceiver_mode (s : State) (l : LineNo) (f : Receiver → Receiver) :
    (modReceiver s l f).mode = s.mode := rfl
@[simp] theorem modReceiver_latch (s : State) (l : LineNo) (f : Receiver → Receiver) :
    (modReceiver s l f).latch = s.latch := rfl
@[simp] theorem modReceiver_pending (s : State) (l : LineNo) (f : Receiver → Receiver) :
    (modReceiver s l f).pending = s.pending := rfl
@[simp] theorem modReceiver_meanwhile (s : State) (l : LineNo) (f : Receiver → Receiver) :
    (modReceiver s l f).meanwhile = s.meanwhile := rfl

/-! ### modFramer -/

@[simp] theorem modFramer_resetLow (s : State) (l : LineNo) (f : Framer → Framer) :
    (modFramer s l f).resetLow = s.resetLow := rfl
@[simp] theorem modFramer_lines (s : State) (l : LineNo) (f : Framer → Framer) :
    (modFramer s l f).lines = modAt s.lines l fun x => { x with framer := f x.framer } := rfl
@[simp] theorem modFramer_banks (s : State) (l : LineNo) (f : Framer → Framer) :
    (modFramer s l f).banks = s.banks := rfl
@[simp] theorem modFramer_slots (s : State) (l : LineNo) (f : Framer → Framer) :
    (modFramer s l f).slots = s.slots := rfl
@[simp] theorem modFramer_recency (s : State) (l : LineNo) (f : Framer → Framer) :
    (modFramer s l f).recency = s.recency := rfl
@[simp] theorem modFramer_takeWait (s : State) (l : LineNo) (f : Framer → Framer) :
    (modFramer s l f).takeWait = s.takeWait := rfl
@[simp] theorem modFramer_routes (s : State) (l : LineNo) (f : Framer → Framer) :
    (modFramer s l f).routes = s.routes := rfl
@[simp] theorem modFramer_defaultSet (s : State) (l : LineNo) (f : Framer → Framer) :
    (modFramer s l f).defaultSet = s.defaultSet := rfl
@[simp] theorem modFramer_flashSet (s : State) (l : LineNo) (f : Framer → Framer) :
    (modFramer s l f).flashSet = s.flashSet := rfl
@[simp] theorem modFramer_precedence (s : State) (l : LineNo) (f : Framer → Framer) :
    (modFramer s l f).precedence = s.precedence := rfl
@[simp] theorem modFramer_freeCount (s : State) (l : LineNo) (f : Framer → Framer) :
    (modFramer s l f).freeCount = s.freeCount := rfl
@[simp] theorem modFramer_circuits (s : State) (l : LineNo) (f : Framer → Framer) :
    (modFramer s l f).circuits = s.circuits := rfl
@[simp] theorem modFramer_mgmt (s : State) (l : LineNo) (f : Framer → Framer) : (modFramer s l f).mgmt = s.mgmt := rfl
@[simp] theorem modFramer_mode (s : State) (l : LineNo) (f : Framer → Framer) : (modFramer s l f).mode = s.mode := rfl
@[simp] theorem modFramer_latch (s : State) (l : LineNo) (f : Framer → Framer) :
    (modFramer s l f).latch = s.latch := rfl
@[simp] theorem modFramer_pending (s : State) (l : LineNo) (f : Framer → Framer) :
    (modFramer s l f).pending = s.pending := rfl
@[simp] theorem modFramer_meanwhile (s : State) (l : LineNo) (f : Framer → Framer) :
    (modFramer s l f).meanwhile = s.meanwhile := rfl

/-! ### modLineCounters -/

@[simp] theorem modLineCounters_resetLow (s : State) (l : LineNo) (f : LineCounters → LineCounters) :
    (modLineCounters s l f).resetLow = s.resetLow := rfl
@[simp] theorem modLineCounters_lines (s : State) (l : LineNo) (f : LineCounters → LineCounters) :
    (modLineCounters s l f).lines = modAt s.lines l fun x => { x with counters := f x.counters } := rfl
@[simp] theorem modLineCounters_banks (s : State) (l : LineNo) (f : LineCounters → LineCounters) :
    (modLineCounters s l f).banks = s.banks := rfl
@[simp] theorem modLineCounters_slots (s : State) (l : LineNo) (f : LineCounters → LineCounters) :
    (modLineCounters s l f).slots = s.slots := rfl
@[simp] theorem modLineCounters_recency (s : State) (l : LineNo) (f : LineCounters → LineCounters) :
    (modLineCounters s l f).recency = s.recency := rfl
@[simp] theorem modLineCounters_takeWait (s : State) (l : LineNo) (f : LineCounters → LineCounters) :
    (modLineCounters s l f).takeWait = s.takeWait := rfl
@[simp] theorem modLineCounters_routes (s : State) (l : LineNo) (f : LineCounters → LineCounters) :
    (modLineCounters s l f).routes = s.routes := rfl
@[simp] theorem modLineCounters_defaultSet (s : State) (l : LineNo) (f : LineCounters → LineCounters) :
    (modLineCounters s l f).defaultSet = s.defaultSet := rfl
@[simp] theorem modLineCounters_flashSet (s : State) (l : LineNo) (f : LineCounters → LineCounters) :
    (modLineCounters s l f).flashSet = s.flashSet := rfl
@[simp] theorem modLineCounters_precedence (s : State) (l : LineNo) (f : LineCounters → LineCounters) :
    (modLineCounters s l f).precedence = s.precedence := rfl
@[simp] theorem modLineCounters_freeCount (s : State) (l : LineNo) (f : LineCounters → LineCounters) :
    (modLineCounters s l f).freeCount = s.freeCount := rfl
@[simp] theorem modLineCounters_circuits (s : State) (l : LineNo) (f : LineCounters → LineCounters) :
    (modLineCounters s l f).circuits = s.circuits := rfl
@[simp] theorem modLineCounters_mgmt (s : State) (l : LineNo) (f : LineCounters → LineCounters) :
    (modLineCounters s l f).mgmt = s.mgmt := rfl
@[simp] theorem modLineCounters_mode (s : State) (l : LineNo) (f : LineCounters → LineCounters) :
    (modLineCounters s l f).mode = s.mode := rfl
@[simp] theorem modLineCounters_latch (s : State) (l : LineNo) (f : LineCounters → LineCounters) :
    (modLineCounters s l f).latch = s.latch := rfl
@[simp] theorem modLineCounters_pending (s : State) (l : LineNo) (f : LineCounters → LineCounters) :
    (modLineCounters s l f).pending = s.pending := rfl
@[simp] theorem modLineCounters_meanwhile (s : State) (l : LineNo) (f : LineCounters → LineCounters) :
    (modLineCounters s l f).meanwhile = s.meanwhile := rfl

/-! ### modSender -/

@[simp] theorem modSender_resetLow (s : State) (c : CircuitNo) (f : Sender → Sender) :
    (modSender s c f).resetLow = s.resetLow := rfl
@[simp] theorem modSender_lines (s : State) (c : CircuitNo) (f : Sender → Sender) :
    (modSender s c f).lines = s.lines := rfl
@[simp] theorem modSender_banks (s : State) (c : CircuitNo) (f : Sender → Sender) :
    (modSender s c f).banks = s.banks := rfl
@[simp] theorem modSender_slots (s : State) (c : CircuitNo) (f : Sender → Sender) :
    (modSender s c f).slots = s.slots := rfl
@[simp] theorem modSender_recency (s : State) (c : CircuitNo) (f : Sender → Sender) :
    (modSender s c f).recency = s.recency := rfl
@[simp] theorem modSender_takeWait (s : State) (c : CircuitNo) (f : Sender → Sender) :
    (modSender s c f).takeWait = s.takeWait := rfl
@[simp] theorem modSender_routes (s : State) (c : CircuitNo) (f : Sender → Sender) :
    (modSender s c f).routes = s.routes := rfl
@[simp] theorem modSender_defaultSet (s : State) (c : CircuitNo) (f : Sender → Sender) :
    (modSender s c f).defaultSet = s.defaultSet := rfl
@[simp] theorem modSender_flashSet (s : State) (c : CircuitNo) (f : Sender → Sender) :
    (modSender s c f).flashSet = s.flashSet := rfl
@[simp] theorem modSender_precedence (s : State) (c : CircuitNo) (f : Sender → Sender) :
    (modSender s c f).precedence = s.precedence := rfl
@[simp] theorem modSender_freeCount (s : State) (c : CircuitNo) (f : Sender → Sender) :
    (modSender s c f).freeCount = s.freeCount := rfl
@[simp] theorem modSender_circuits (s : State) (c : CircuitNo) (f : Sender → Sender) :
    (modSender s c f).circuits = modAt s.circuits c fun x => { x with sender := f x.sender } := rfl
@[simp] theorem modSender_mgmt (s : State) (c : CircuitNo) (f : Sender → Sender) :
    (modSender s c f).mgmt = s.mgmt := rfl
@[simp] theorem modSender_mode (s : State) (c : CircuitNo) (f : Sender → Sender) :
    (modSender s c f).mode = s.mode := rfl
@[simp] theorem modSender_latch (s : State) (c : CircuitNo) (f : Sender → Sender) :
    (modSender s c f).latch = s.latch := rfl
@[simp] theorem modSender_pending (s : State) (c : CircuitNo) (f : Sender → Sender) :
    (modSender s c f).pending = s.pending := rfl
@[simp] theorem modSender_meanwhile (s : State) (c : CircuitNo) (f : Sender → Sender) :
    (modSender s c f).meanwhile = s.meanwhile := rfl

/-! ### modQueue -/

@[simp] theorem modQueue_resetLow (s : State) (c : CircuitNo) (f : List Rec → List Rec) :
    (modQueue s c f).resetLow = s.resetLow := rfl
@[simp] theorem modQueue_lines (s : State) (c : CircuitNo) (f : List Rec → List Rec) :
    (modQueue s c f).lines = s.lines := rfl
@[simp] theorem modQueue_banks (s : State) (c : CircuitNo) (f : List Rec → List Rec) :
    (modQueue s c f).banks = s.banks := rfl
@[simp] theorem modQueue_slots (s : State) (c : CircuitNo) (f : List Rec → List Rec) :
    (modQueue s c f).slots = s.slots := rfl
@[simp] theorem modQueue_recency (s : State) (c : CircuitNo) (f : List Rec → List Rec) :
    (modQueue s c f).recency = s.recency := rfl
@[simp] theorem modQueue_takeWait (s : State) (c : CircuitNo) (f : List Rec → List Rec) :
    (modQueue s c f).takeWait = s.takeWait := rfl
@[simp] theorem modQueue_routes (s : State) (c : CircuitNo) (f : List Rec → List Rec) :
    (modQueue s c f).routes = s.routes := rfl
@[simp] theorem modQueue_defaultSet (s : State) (c : CircuitNo) (f : List Rec → List Rec) :
    (modQueue s c f).defaultSet = s.defaultSet := rfl
@[simp] theorem modQueue_flashSet (s : State) (c : CircuitNo) (f : List Rec → List Rec) :
    (modQueue s c f).flashSet = s.flashSet := rfl
@[simp] theorem modQueue_precedence (s : State) (c : CircuitNo) (f : List Rec → List Rec) :
    (modQueue s c f).precedence = s.precedence := rfl
@[simp] theorem modQueue_freeCount (s : State) (c : CircuitNo) (f : List Rec → List Rec) :
    (modQueue s c f).freeCount = s.freeCount := rfl
@[simp] theorem modQueue_circuits (s : State) (c : CircuitNo) (f : List Rec → List Rec) :
    (modQueue s c f).circuits = modAt s.circuits c fun x => { x with queue := f x.queue } := rfl
@[simp] theorem modQueue_mgmt (s : State) (c : CircuitNo) (f : List Rec → List Rec) :
    (modQueue s c f).mgmt = s.mgmt := rfl
@[simp] theorem modQueue_mode (s : State) (c : CircuitNo) (f : List Rec → List Rec) :
    (modQueue s c f).mode = s.mode := rfl
@[simp] theorem modQueue_latch (s : State) (c : CircuitNo) (f : List Rec → List Rec) :
    (modQueue s c f).latch = s.latch := rfl
@[simp] theorem modQueue_pending (s : State) (c : CircuitNo) (f : List Rec → List Rec) :
    (modQueue s c f).pending = s.pending := rfl
@[simp] theorem modQueue_meanwhile (s : State) (c : CircuitNo) (f : List Rec → List Rec) :
    (modQueue s c f).meanwhile = s.meanwhile := rfl

/-! ### modTake -/

@[simp] theorem modTake_resetLow (s : State) (n : SlotNo) (t : TakeNo) (f : Take → Take) :
    (modTake s n t f).resetLow = s.resetLow := rfl
@[simp] theorem modTake_lines (s : State) (n : SlotNo) (t : TakeNo) (f : Take → Take) :
    (modTake s n t f).lines = s.lines := rfl
@[simp] theorem modTake_banks (s : State) (n : SlotNo) (t : TakeNo) (f : Take → Take) :
    (modTake s n t f).banks = s.banks := rfl
@[simp] theorem modTake_slots (s : State) (n : SlotNo) (t : TakeNo) (f : Take → Take) :
    (modTake s n t f).slots = modAt s.slots n fun x => { x with takes := modAt x.takes t (Option.map f) } := rfl
@[simp] theorem modTake_recency (s : State) (n : SlotNo) (t : TakeNo) (f : Take → Take) :
    (modTake s n t f).recency = s.recency := rfl
@[simp] theorem modTake_takeWait (s : State) (n : SlotNo) (t : TakeNo) (f : Take → Take) :
    (modTake s n t f).takeWait = s.takeWait := rfl
@[simp] theorem modTake_routes (s : State) (n : SlotNo) (t : TakeNo) (f : Take → Take) :
    (modTake s n t f).routes = s.routes := rfl
@[simp] theorem modTake_defaultSet (s : State) (n : SlotNo) (t : TakeNo) (f : Take → Take) :
    (modTake s n t f).defaultSet = s.defaultSet := rfl
@[simp] theorem modTake_flashSet (s : State) (n : SlotNo) (t : TakeNo) (f : Take → Take) :
    (modTake s n t f).flashSet = s.flashSet := rfl
@[simp] theorem modTake_precedence (s : State) (n : SlotNo) (t : TakeNo) (f : Take → Take) :
    (modTake s n t f).precedence = s.precedence := rfl
@[simp] theorem modTake_freeCount (s : State) (n : SlotNo) (t : TakeNo) (f : Take → Take) :
    (modTake s n t f).freeCount = s.freeCount := rfl
@[simp] theorem modTake_circuits (s : State) (n : SlotNo) (t : TakeNo) (f : Take → Take) :
    (modTake s n t f).circuits = s.circuits := rfl
@[simp] theorem modTake_mgmt (s : State) (n : SlotNo) (t : TakeNo) (f : Take → Take) :
    (modTake s n t f).mgmt = s.mgmt := rfl
@[simp] theorem modTake_mode (s : State) (n : SlotNo) (t : TakeNo) (f : Take → Take) :
    (modTake s n t f).mode = s.mode := rfl
@[simp] theorem modTake_latch (s : State) (n : SlotNo) (t : TakeNo) (f : Take → Take) :
    (modTake s n t f).latch = s.latch := rfl
@[simp] theorem modTake_pending (s : State) (n : SlotNo) (t : TakeNo) (f : Take → Take) :
    (modTake s n t f).pending = s.pending := rfl
@[simp] theorem modTake_meanwhile (s : State) (n : SlotNo) (t : TakeNo) (f : Take → Take) :
    (modTake s n t f).meanwhile = s.meanwhile := rfl

/-! ### slotToFront -/

@[simp] theorem slotToFront_resetLow (s : State) (n : SlotNo) : (slotToFront s n).resetLow = s.resetLow := rfl
@[simp] theorem slotToFront_lines (s : State) (n : SlotNo) : (slotToFront s n).lines = s.lines := rfl
@[simp] theorem slotToFront_banks (s : State) (n : SlotNo) : (slotToFront s n).banks = s.banks := rfl
@[simp] theorem slotToFront_slots (s : State) (n : SlotNo) : (slotToFront s n).slots = s.slots := rfl
@[simp] theorem slotToFront_recency (s : State) (n : SlotNo) : (slotToFront s n).recency = toFront n s.recency := rfl
@[simp] theorem slotToFront_takeWait (s : State) (n : SlotNo) : (slotToFront s n).takeWait = s.takeWait := rfl
@[simp] theorem slotToFront_routes (s : State) (n : SlotNo) : (slotToFront s n).routes = s.routes := rfl
@[simp] theorem slotToFront_defaultSet (s : State) (n : SlotNo) : (slotToFront s n).defaultSet = s.defaultSet := rfl
@[simp] theorem slotToFront_flashSet (s : State) (n : SlotNo) : (slotToFront s n).flashSet = s.flashSet := rfl
@[simp] theorem slotToFront_precedence (s : State) (n : SlotNo) : (slotToFront s n).precedence = s.precedence := rfl
@[simp] theorem slotToFront_freeCount (s : State) (n : SlotNo) : (slotToFront s n).freeCount = s.freeCount := rfl
@[simp] theorem slotToFront_circuits (s : State) (n : SlotNo) : (slotToFront s n).circuits = s.circuits := rfl
@[simp] theorem slotToFront_mgmt (s : State) (n : SlotNo) : (slotToFront s n).mgmt = s.mgmt := rfl
@[simp] theorem slotToFront_mode (s : State) (n : SlotNo) : (slotToFront s n).mode = s.mode := rfl
@[simp] theorem slotToFront_latch (s : State) (n : SlotNo) : (slotToFront s n).latch = s.latch := rfl
@[simp] theorem slotToFront_pending (s : State) (n : SlotNo) : (slotToFront s n).pending = s.pending := rfl
@[simp] theorem slotToFront_meanwhile (s : State) (n : SlotNo) : (slotToFront s n).meanwhile = s.meanwhile := rfl

/-! ### slotToTail -/

@[simp] theorem slotToTail_resetLow (s : State) (n : SlotNo) : (slotToTail s n).resetLow = s.resetLow := rfl
@[simp] theorem slotToTail_lines (s : State) (n : SlotNo) : (slotToTail s n).lines = s.lines := rfl
@[simp] theorem slotToTail_banks (s : State) (n : SlotNo) : (slotToTail s n).banks = s.banks := rfl
@[simp] theorem slotToTail_slots (s : State) (n : SlotNo) : (slotToTail s n).slots = s.slots := rfl
@[simp] theorem slotToTail_recency (s : State) (n : SlotNo) : (slotToTail s n).recency = toTail n s.recency := rfl
@[simp] theorem slotToTail_takeWait (s : State) (n : SlotNo) : (slotToTail s n).takeWait = s.takeWait := rfl
@[simp] theorem slotToTail_routes (s : State) (n : SlotNo) : (slotToTail s n).routes = s.routes := rfl
@[simp] theorem slotToTail_defaultSet (s : State) (n : SlotNo) : (slotToTail s n).defaultSet = s.defaultSet := rfl
@[simp] theorem slotToTail_flashSet (s : State) (n : SlotNo) : (slotToTail s n).flashSet = s.flashSet := rfl
@[simp] theorem slotToTail_precedence (s : State) (n : SlotNo) : (slotToTail s n).precedence = s.precedence := rfl
@[simp] theorem slotToTail_freeCount (s : State) (n : SlotNo) : (slotToTail s n).freeCount = s.freeCount := rfl
@[simp] theorem slotToTail_circuits (s : State) (n : SlotNo) : (slotToTail s n).circuits = s.circuits := rfl
@[simp] theorem slotToTail_mgmt (s : State) (n : SlotNo) : (slotToTail s n).mgmt = s.mgmt := rfl
@[simp] theorem slotToTail_mode (s : State) (n : SlotNo) : (slotToTail s n).mode = s.mode := rfl
@[simp] theorem slotToTail_latch (s : State) (n : SlotNo) : (slotToTail s n).latch = s.latch := rfl
@[simp] theorem slotToTail_pending (s : State) (n : SlotNo) : (slotToTail s n).pending = s.pending := rfl
@[simp] theorem slotToTail_meanwhile (s : State) (n : SlotNo) : (slotToTail s n).meanwhile = s.meanwhile := rfl

/-! ### addPending -/

@[simp] theorem addPending_resetLow (s : State) (n : SlotNo) : (addPending s n).resetLow = s.resetLow := rfl
@[simp] theorem addPending_lines (s : State) (n : SlotNo) : (addPending s n).lines = s.lines := rfl
@[simp] theorem addPending_banks (s : State) (n : SlotNo) : (addPending s n).banks = s.banks := rfl
@[simp] theorem addPending_slots (s : State) (n : SlotNo) :
    (addPending s n).slots = modAt s.slots n fun x => { x with pendingCount := x.pendingCount + 1 } := rfl
@[simp] theorem addPending_recency (s : State) (n : SlotNo) : (addPending s n).recency = s.recency := rfl
@[simp] theorem addPending_takeWait (s : State) (n : SlotNo) : (addPending s n).takeWait = s.takeWait := rfl
@[simp] theorem addPending_routes (s : State) (n : SlotNo) : (addPending s n).routes = s.routes := rfl
@[simp] theorem addPending_defaultSet (s : State) (n : SlotNo) : (addPending s n).defaultSet = s.defaultSet := rfl
@[simp] theorem addPending_flashSet (s : State) (n : SlotNo) : (addPending s n).flashSet = s.flashSet := rfl
@[simp] theorem addPending_precedence (s : State) (n : SlotNo) : (addPending s n).precedence = s.precedence := rfl
@[simp] theorem addPending_freeCount (s : State) (n : SlotNo) : (addPending s n).freeCount = s.freeCount := rfl
@[simp] theorem addPending_circuits (s : State) (n : SlotNo) : (addPending s n).circuits = s.circuits := rfl
@[simp] theorem addPending_mgmt (s : State) (n : SlotNo) : (addPending s n).mgmt = s.mgmt := rfl
@[simp] theorem addPending_mode (s : State) (n : SlotNo) : (addPending s n).mode = s.mode := rfl
@[simp] theorem addPending_latch (s : State) (n : SlotNo) : (addPending s n).latch = s.latch := rfl
@[simp] theorem addPending_pending (s : State) (n : SlotNo) : (addPending s n).pending = s.pending := rfl
@[simp] theorem addPending_meanwhile (s : State) (n : SlotNo) : (addPending s n).meanwhile = s.meanwhile := rfl

/-! ### countMissed -/

@[simp] theorem countMissed_resetLow (s : State) (c : CircuitNo) : (countMissed s c).resetLow = s.resetLow := rfl
@[simp] theorem countMissed_lines (s : State) (c : CircuitNo) : (countMissed s c).lines = s.lines := rfl
@[simp] theorem countMissed_banks (s : State) (c : CircuitNo) : (countMissed s c).banks = s.banks := rfl
@[simp] theorem countMissed_slots (s : State) (c : CircuitNo) : (countMissed s c).slots = s.slots := rfl
@[simp] theorem countMissed_recency (s : State) (c : CircuitNo) : (countMissed s c).recency = s.recency := rfl
@[simp] theorem countMissed_takeWait (s : State) (c : CircuitNo) : (countMissed s c).takeWait = s.takeWait := rfl
@[simp] theorem countMissed_routes (s : State) (c : CircuitNo) : (countMissed s c).routes = s.routes := rfl
@[simp] theorem countMissed_defaultSet (s : State) (c : CircuitNo) :
    (countMissed s c).defaultSet = s.defaultSet := rfl
@[simp] theorem countMissed_flashSet (s : State) (c : CircuitNo) : (countMissed s c).flashSet = s.flashSet := rfl
@[simp] theorem countMissed_precedence (s : State) (c : CircuitNo) :
    (countMissed s c).precedence = s.precedence := rfl
@[simp] theorem countMissed_freeCount (s : State) (c : CircuitNo) : (countMissed s c).freeCount = s.freeCount := rfl
@[simp] theorem countMissed_circuits (s : State) (c : CircuitNo) :
    (countMissed s c).circuits =
      modAt s.circuits c fun x => { x with sender := { x.sender with missed := count x.sender.missed } } := rfl
@[simp] theorem countMissed_mgmt (s : State) (c : CircuitNo) : (countMissed s c).mgmt = s.mgmt := rfl
@[simp] theorem countMissed_mode (s : State) (c : CircuitNo) : (countMissed s c).mode = s.mode := rfl
@[simp] theorem countMissed_latch (s : State) (c : CircuitNo) : (countMissed s c).latch = s.latch := rfl
@[simp] theorem countMissed_pending (s : State) (c : CircuitNo) : (countMissed s c).pending = s.pending := rfl
@[simp] theorem countMissed_meanwhile (s : State) (c : CircuitNo) : (countMissed s c).meanwhile = s.meanwhile := rfl

/-! ### modEntry -/

@[simp] theorem modEntry_resetLow (s : State) (k : EventKind) (f : LatchEntry → LatchEntry) :
    (modEntry s k f).resetLow = s.resetLow := rfl
@[simp] theorem modEntry_lines (s : State) (k : EventKind) (f : LatchEntry → LatchEntry) :
    (modEntry s k f).lines = s.lines := rfl
@[simp] theorem modEntry_banks (s : State) (k : EventKind) (f : LatchEntry → LatchEntry) :
    (modEntry s k f).banks = s.banks := rfl
@[simp] theorem modEntry_slots (s : State) (k : EventKind) (f : LatchEntry → LatchEntry) :
    (modEntry s k f).slots = s.slots := rfl
@[simp] theorem modEntry_recency (s : State) (k : EventKind) (f : LatchEntry → LatchEntry) :
    (modEntry s k f).recency = s.recency := rfl
@[simp] theorem modEntry_takeWait (s : State) (k : EventKind) (f : LatchEntry → LatchEntry) :
    (modEntry s k f).takeWait = s.takeWait := rfl
@[simp] theorem modEntry_routes (s : State) (k : EventKind) (f : LatchEntry → LatchEntry) :
    (modEntry s k f).routes = s.routes := rfl
@[simp] theorem modEntry_defaultSet (s : State) (k : EventKind) (f : LatchEntry → LatchEntry) :
    (modEntry s k f).defaultSet = s.defaultSet := rfl
@[simp] theorem modEntry_flashSet (s : State) (k : EventKind) (f : LatchEntry → LatchEntry) :
    (modEntry s k f).flashSet = s.flashSet := rfl
@[simp] theorem modEntry_precedence (s : State) (k : EventKind) (f : LatchEntry → LatchEntry) :
    (modEntry s k f).precedence = s.precedence := rfl
@[simp] theorem modEntry_freeCount (s : State) (k : EventKind) (f : LatchEntry → LatchEntry) :
    (modEntry s k f).freeCount = s.freeCount := rfl
@[simp] theorem modEntry_circuits (s : State) (k : EventKind) (f : LatchEntry → LatchEntry) :
    (modEntry s k f).circuits = s.circuits := rfl
@[simp] theorem modEntry_mgmt (s : State) (k : EventKind) (f : LatchEntry → LatchEntry) :
    (modEntry s k f).mgmt = s.mgmt := rfl
@[simp] theorem modEntry_mode (s : State) (k : EventKind) (f : LatchEntry → LatchEntry) :
    (modEntry s k f).mode = s.mode := rfl
@[simp] theorem modEntry_latch (s : State) (k : EventKind) (f : LatchEntry → LatchEntry) :
    (modEntry s k f).latch = { s.latch with entries := modAt s.latch.entries (kindIdx k) f } := rfl
@[simp] theorem modEntry_pending (s : State) (k : EventKind) (f : LatchEntry → LatchEntry) :
    (modEntry s k f).pending = s.pending := rfl
@[simp] theorem modEntry_meanwhile (s : State) (k : EventKind) (f : LatchEntry → LatchEntry) :
    (modEntry s k f).meanwhile = s.meanwhile := rfl

/-! ### popLine -/

@[simp] theorem popLine_resetLow (s : State) : (popLine s).resetLow = s.resetLow := rfl
@[simp] theorem popLine_lines (s : State) : (popLine s).lines = s.lines := rfl
@[simp] theorem popLine_banks (s : State) : (popLine s).banks = s.banks := rfl
@[simp] theorem popLine_slots (s : State) : (popLine s).slots = s.slots := rfl
@[simp] theorem popLine_recency (s : State) : (popLine s).recency = s.recency := rfl
@[simp] theorem popLine_takeWait (s : State) : (popLine s).takeWait = s.takeWait := rfl
@[simp] theorem popLine_routes (s : State) : (popLine s).routes = s.routes := rfl
@[simp] theorem popLine_defaultSet (s : State) : (popLine s).defaultSet = s.defaultSet := rfl
@[simp] theorem popLine_flashSet (s : State) : (popLine s).flashSet = s.flashSet := rfl
@[simp] theorem popLine_precedence (s : State) : (popLine s).precedence = s.precedence := rfl
@[simp] theorem popLine_freeCount (s : State) : (popLine s).freeCount = s.freeCount := rfl
@[simp] theorem popLine_circuits (s : State) : (popLine s).circuits = s.circuits := rfl
@[simp] theorem popLine_mgmt (s : State) : (popLine s).mgmt = { s.mgmt with lines := s.mgmt.lines.tail } := rfl
@[simp] theorem popLine_mode (s : State) : (popLine s).mode = s.mode := rfl
@[simp] theorem popLine_latch (s : State) : (popLine s).latch = s.latch := rfl
@[simp] theorem popLine_pending (s : State) : (popLine s).pending = s.pending := rfl
@[simp] theorem popLine_meanwhile (s : State) : (popLine s).meanwhile = s.meanwhile := rfl

/-! ### setEntry -/

@[simp] theorem setEntry_resetLow (s : State) (n : EntryNo) (f : RouteEntry → RouteEntry) :
    (setEntry s n f).resetLow = s.resetLow := rfl
@[simp] theorem setEntry_lines (s : State) (n : EntryNo) (f : RouteEntry → RouteEntry) :
    (setEntry s n f).lines = s.lines := rfl
@[simp] theorem setEntry_banks (s : State) (n : EntryNo) (f : RouteEntry → RouteEntry) :
    (setEntry s n f).banks = s.banks := rfl
@[simp] theorem setEntry_slots (s : State) (n : EntryNo) (f : RouteEntry → RouteEntry) :
    (setEntry s n f).slots = s.slots := rfl
@[simp] theorem setEntry_recency (s : State) (n : EntryNo) (f : RouteEntry → RouteEntry) :
    (setEntry s n f).recency = s.recency := rfl
@[simp] theorem setEntry_takeWait (s : State) (n : EntryNo) (f : RouteEntry → RouteEntry) :
    (setEntry s n f).takeWait = s.takeWait := rfl
@[simp] theorem setEntry_routes (s : State) (n : EntryNo) (f : RouteEntry → RouteEntry) :
    (setEntry s n f).routes = modAt s.routes n f := rfl
@[simp] theorem setEntry_defaultSet (s : State) (n : EntryNo) (f : RouteEntry → RouteEntry) :
    (setEntry s n f).defaultSet = s.defaultSet := rfl
@[simp] theorem setEntry_flashSet (s : State) (n : EntryNo) (f : RouteEntry → RouteEntry) :
    (setEntry s n f).flashSet = s.flashSet := rfl
@[simp] theorem setEntry_precedence (s : State) (n : EntryNo) (f : RouteEntry → RouteEntry) :
    (setEntry s n f).precedence = s.precedence := rfl
@[simp] theorem setEntry_freeCount (s : State) (n : EntryNo) (f : RouteEntry → RouteEntry) :
    (setEntry s n f).freeCount = s.freeCount := rfl
@[simp] theorem setEntry_circuits (s : State) (n : EntryNo) (f : RouteEntry → RouteEntry) :
    (setEntry s n f).circuits = s.circuits := rfl
@[simp] theorem setEntry_mgmt (s : State) (n : EntryNo) (f : RouteEntry → RouteEntry) :
    (setEntry s n f).mgmt = s.mgmt := rfl
@[simp] theorem setEntry_mode (s : State) (n : EntryNo) (f : RouteEntry → RouteEntry) :
    (setEntry s n f).mode = s.mode := rfl
@[simp] theorem setEntry_latch (s : State) (n : EntryNo) (f : RouteEntry → RouteEntry) :
    (setEntry s n f).latch = s.latch := rfl
@[simp] theorem setEntry_pending (s : State) (n : EntryNo) (f : RouteEntry → RouteEntry) :
    (setEntry s n f).pending = s.pending := rfl
@[simp] theorem setEntry_meanwhile (s : State) (n : EntryNo) (f : RouteEntry → RouteEntry) :
    (setEntry s n f).meanwhile = s.meanwhile := rfl

end Sys2Proof.Machine
end

