-- ==== Sys2Proof/Laws/Frames.lean ====
section
/-!
SUPPORT. Laws/Frames.lean: what each shared operation leaves alone, in the terms of Safety.lean.
-/
namespace Sys2Proof.Machine

open Sys2Proof

/-! ### The relations compose -/

theorem TablesKept.refl (s : State) : TablesKept s s := by constructor <;> simp

theorem TablesKept.trans {s t u : State} (h : TablesKept s t) (g : TablesKept t u) : TablesKept s u where
  resetLow := g.resetLow.trans h.resetLow
  pending := g.pending.trans h.pending
  meanwhile := g.meanwhile.trans h.meanwhile
  banks := g.banks.trans h.banks
  takeWait := g.takeWait.trans h.takeWait
  routes := g.routes.trans h.routes
  defaultSet := g.defaultSet.trans h.defaultSet
  flashSet := g.flashSet.trans h.flashSet
  precedence := g.precedence.trans h.precedence
  mode := g.mode.trans h.mode
  reportCircuit := g.reportCircuit.trans h.reportCircuit
  alertMode := g.alertMode.trans h.alertMode
  masks k := (g.masks k).trans (h.masks k)
  lineDescs l := ⟨(g.lineDescs l).1.trans (h.lineDescs l).1, (g.lineDescs l).2.trans (h.lineDescs l).2⟩
  circuitDescs c := ⟨(g.circuitDescs c).1.trans (h.circuitDescs c).1, (g.circuitDescs c).2.trans (h.circuitDescs c).2⟩

theorem DeliveryOnly.refl (s : State) : DeliveryOnly s s := ⟨.refl s, rfl, rfl, rfl, fun _ => rfl⟩

theorem DeliveryOnly.trans {s t u : State} (h : DeliveryOnly s t) (g : DeliveryOnly t u) : DeliveryOnly s u where
  tables := h.tables.trans g.tables
  lines := g.lines.trans h.lines
  recency := g.recency.trans h.recency
  message := by
    have a := h.message
    have b := g.message
    have e : { u.mgmt with reports := s.mgmt.reports } =
        { ({ u.mgmt with reports := t.mgmt.reports } : Mgmt) with reports := s.mgmt.reports } := rfl
    rw [e, b, a]
  stories n := (g.stories n).trans (h.stories n)

theorem OnlyCircuit.of_eq {c : CircuitNo} {s t : State} {q : List Rec} {y : Sender}
    (h : t = modCircuit s c fun x => { x with queue := q, sender := y }) : OnlyCircuit c s t := by
  subst h
  simp [OnlyCircuit]

theorem OnlyCircuit.refl (c : CircuitNo) (s : State) : OnlyCircuit c s s := by
  have h : modAt s.circuits c (fun x => { x with queue := s.circuits[c].queue, sender := s.circuits[c].sender }) =
      s.circuits := modAt_id _ _ _ rfl
  simp only [OnlyCircuit, modCircuit]
  rw [h]

theorem modAt_modAt {α : Type} {n : Nat} (v : Vector α n) (i : Fin n) (f g : α → α) :
    modAt (modAt v i f) i g = modAt v i fun x => g (f x) := by
  apply array_ext
  intro j
  simp only [modAt_get]
  split <;> rfl

theorem OnlyCircuit.trans {c : CircuitNo} {s t u : State} (h : OnlyCircuit c s t) (g : OnlyCircuit c t u) :
    OnlyCircuit c s u := by
  refine OnlyCircuit.of_eq (q := u.circuits[c].queue) (y := u.circuits[c].sender) ?_
  unfold OnlyCircuit at h g
  rw [g, h]
  simp [modCircuit, modAt_modAt]

theorem modSender_only (s : State) (c : CircuitNo) (f : Sender → Sender) : OnlyCircuit c s (modSender s c f) :=
  .of_eq (q := s.circuits[c].queue) (y := f s.circuits[c].sender) rfl

theorem modQueue_only (s : State) (c : CircuitNo) (f : List Rec → List Rec) : OnlyCircuit c s (modQueue s c f) :=
  .of_eq (q := f s.circuits[c].queue) (y := s.circuits[c].sender) rfl

/-- A change to one circuit's queue and sender is a matter of deliveries. -/
theorem OnlyCircuit.delivery {c : CircuitNo} {s t : State} (h : OnlyCircuit c s t) : DeliveryOnly s t := by
  unfold OnlyCircuit at h
  generalize t.circuits[c].queue = q, t.circuits[c].sender = y at h
  subst h
  refine ⟨?_, rfl, rfl, rfl, fun _ => rfl⟩
  constructor <;> try simp
  intro d
  simp only [← Fin.getElem_fin, modAt_get]
  split <;> simp

theorem OnlyCircuit.slots {c : CircuitNo} {s t : State} (h : OnlyCircuit c s t) : t.slots = s.slots := by
  unfold OnlyCircuit at h
  rw [h]; rfl

theorem OnlyCircuit.freeCount {c : CircuitNo} {s t : State} (h : OnlyCircuit c s t) : t.freeCount = s.freeCount := by
  unfold OnlyCircuit at h
  rw [h]; rfl

theorem OnlyCircuit.mgmt {c : CircuitNo} {s t : State} (h : OnlyCircuit c s t) : t.mgmt = s.mgmt := by
  unfold OnlyCircuit at h
  rw [h]; rfl

theorem OnlyCircuit.latch {c : CircuitNo} {s t : State} (h : OnlyCircuit c s t) : t.latch = s.latch := by
  unfold OnlyCircuit at h
  rw [h]; rfl

theorem OnlyCircuit.other {c d : CircuitNo} {s t : State} (h : OnlyCircuit c s t) (e : d ≠ c) :
    t.circuits[d] = s.circuits[d] := by
  unfold OnlyCircuit at h
  rw [h]
  exact modAt_other _ _ e

/-! ### Senders -/

theorem takeNext_only (s : State) (c : CircuitNo) : OnlyCircuit c s (takeNext s c) := by
  simp only [takeNext]
  split
  · exact .refl c s
  · split <;> exact modSender_only _ _ _

theorem carryRecord_only (s : State) (c : CircuitNo) (r : Rec) (p : Bool) : OnlyCircuit c s (carryRecord s c r p) :=
  (modSender_only s c _).trans (takeNext_only _ c)

theorem carryReport_only (s : State) (c : CircuitNo) : OnlyCircuit c s (carryReport s c) :=
  (modSender_only s c _).trans (takeNext_only _ c)

theorem enterPausing_only (s : State) (c : CircuitNo) : OnlyCircuit c s (enterPausing s c) := by
  simp only [enterPausing]
  split <;> exact modSender_only _ _ _

theorem select_only (s : State) (c : CircuitNo) : OnlyCircuit c s (select s c) := by
  simp only [select]
  split
  · split
    · exact (modQueue_only s c _).trans (carryRecord_only _ c _ _)
    · exact .refl c s
  · exact (modSender_only s c _).trans (carryRecord_only _ c _ _)
  · exact carryReport_only s c
  · split
    · exact .refl c s
    · exact enterPausing_only s c

theorem enterStarting_only (s : State) (c : CircuitNo) : OnlyCircuit c s (enterStarting s c) := by
  simp only [enterStarting]
  split
  · exact ((modSender_only s c _).trans (modSender_only _ c _)).trans (select_only _ c)
  · exact modSender_only s c _

theorem workTest_only (s : State) (c : CircuitNo) : OnlyCircuit c s (workTest s c) := by
  simp only [workTest]
  split
  · exact enterStarting_only s c
  · exact .refl c s

theorem offer_only (s : State) (c : CircuitNo) : OnlyCircuit c s (offer s c) := by
  simp only [offer]
  split
  · exact workTest_only s c
  · exact select_only s c
  · exact .refl c s

theorem tellJoined_only (s : State) (c : CircuitNo) (x : Class) : OnlyCircuit c s (tellJoined s c x) := by
  simp only [tellJoined]
  split
  · simp only [breakIfPending]
    split
    · split
      · exact modSender_only s c _
      · exact .refl c s
    · exact .refl c s
  · exact offer_only s c

theorem joinQueue_only (s : State) (c : CircuitNo) (r : Rec) : OnlyCircuit c s (joinQueue s c r) :=
  (modQueue_only s c _).trans (tellJoined_only _ c _)

theorem tellWithheldMore_only (s : State) (c : CircuitNo) : OnlyCircuit c s (tellWithheldMore s c) := by
  simp only [tellWithheldMore]
  split
  · split
    · exact .refl c s
    · exact modSender_only s c _
  · split
    · exact .refl c s
    · exact modSender_only s c _
  · exact .refl c s

theorem tellDegree_only (m : Mode) (s : State) (c : CircuitNo) : OnlyCircuit c s (tellDegree m s c) := by
  simp only [tellDegree]
  split
  · exact tellWithheldMore_only s c
  · split
    · exact offer_only s c
    · exact .refl c s

/-! ### Reports and the latch -/

/-- A relation kept by each turn is kept by the turns of a list. -/
theorem foldl_keeps {α : Type} (R : State → State → Prop) (refl : ∀ s, R s s)
    (trans : ∀ {s t u}, R s t → R t u → R s u) (f : State → α → State) (h : ∀ s a, R s (f s a)) (l : List α) (s : State) :
    R s (l.foldl f s) := by
  induction l generalizing s with
  | nil => exact refl s
  | cons a l ih => exact trans (h s a) (ih _)

/-- A delivery-only change that leaves the slots and the pool alone: reports, the latch and senders. -/
structure ReportOnly (s t : State) : Prop where
  delivery : DeliveryOnly s t
  slots : t.slots = s.slots
  freeCount : t.freeCount = s.freeCount

theorem ReportOnly.refl (s : State) : ReportOnly s s := ⟨.refl s, rfl, rfl⟩

theorem ReportOnly.trans {s t u : State} (h : ReportOnly s t) (g : ReportOnly t u) : ReportOnly s u :=
  ⟨h.delivery.trans g.delivery, g.slots.trans h.slots, g.freeCount.trans h.freeCount⟩

/-- `trans` with the later change first. -/
theorem ReportOnly.after {s t u : State} (g : ReportOnly t u) (h : ReportOnly s t) : ReportOnly s u := h.trans g

theorem DeliveryOnly.after {s t u : State} (g : DeliveryOnly t u) (h : DeliveryOnly s t) : DeliveryOnly s u := h.trans g

theorem OnlyCircuit.report {c : CircuitNo} {s t : State} (h : OnlyCircuit c s t) : ReportOnly s t :=
  ⟨h.delivery, h.slots, h.freeCount⟩

theorem modEntry_report (s : State) (k : EventKind) (f : LatchEntry → LatchEntry) (h : ∀ e, (f e).masked = e.masked) :
    ReportOnly s (modEntry s k f) := by
  refine ⟨⟨?_, rfl, rfl, rfl, fun _ => rfl⟩, rfl, rfl⟩
  constructor <;> try simp
  intro j
  exact modAt_keeps _ _ j f LatchEntry.masked h

theorem modReports_report (s : State) (f : List Text → List Text) :
    ReportOnly s (modMgmt s fun m => { m with reports := f m.reports }) := by
  refine ⟨⟨?_, rfl, rfl, rfl, fun _ => rfl⟩, rfl, rfl⟩
  constructor <;> simp

theorem pushReport_report (s : State) (t : Text) : ReportOnly s (pushReport s t) :=
  .after (offer_only _ _).report (modReports_report s fun l => l ++ [t])

theorem alertDue_report (s : State) (k : EventKind) : ReportOnly s (alertDue s k) := by
  simp only [alertDue]
  split
  · exact pushReport_report s _
  · exact modEntry_report s k _ fun _ => rfl

theorem raise_report (s : State) (k : EventKind) (d : Detail) : ReportOnly s (raise s k d) := by
  simp only [raise]
  split
  · exact modEntry_report s k _ fun _ => rfl
  · split
    · exact .after (alertDue_report _ k) (modEntry_report s k _ fun _ => rfl)
    · exact modEntry_report s k _ fun _ => rfl

theorem placeReply_report (s : State) (t : Text) : ReportOnly s (placeReply s t) := by
  simp only [placeReply]
  split
  · exact pushReport_report s t
  · exact raise_report s _ _

theorem payOwed_report (s : State) (k : EventKind) : ReportOnly s (payOwed s k) := by
  simp only [payOwed]
  split
  · exact .after (pushReport_report _ _) (modEntry_report s k (fun e => { e with owed := false }) fun _ => rfl)
  · exact .refl s

theorem reportLeaves_report (s : State) : ReportOnly s (reportLeaves s) :=
  .after (foldl_keeps ReportOnly .refl .trans _ payOwed_report _ _) (modReports_report s List.tail)

/-! ### Records -/

theorem slotCore_dropReader (x : Slot) (t : TakeNo) : slotCore (dropReader x t) = slotCore x := by
  unfold dropReader
  split
  · rfl
  · next k hk =>
    split
    · rfl
    · next v m hv =>
      have key : ∀ y : Option (Version × Nat),
          mapAll (put x.takes t (some { k with superseded := y })) (Option.map fun k => { k with superseded := none }) =
            mapAll x.takes (Option.map fun k => { k with superseded := none }) := by
        intro y
        apply array_ext
        intro j
        simp only [mapAll_get]
        by_cases e : j = t
        · subst e; rw [put_same, hk]; rfl
        · rw [put_other _ _ e]
      split <;> simp only [slotCore, key]

theorem slotCore_unname (x : Slot) (f : RecRef) : slotCore (unname x f) = slotCore x := by
  simp only [unname]
  split
  · rfl
  · rw [slotCore_dropReader]; rfl

theorem modSlot_delivery (s : State) (n : SlotNo) (f : Slot → Slot) (h : ∀ x, slotCore (f x) = slotCore x) :
    DeliveryOnly s (modSlot s n f) := by
  refine ⟨?_, rfl, rfl, rfl, fun m => modAt_keeps _ _ m f slotCore h⟩
  constructor <;> simp

theorem unnameIn_delivery (s : State) (ref : Option RecRef) : DeliveryOnly s (unnameIn s ref) := by
  unfold unnameIn
  split
  · exact .refl s
  · exact modSlot_delivery s _ _ fun x => slotCore_unname x _

theorem freeCount_delivery (s : State) (k : Nat) : DeliveryOnly s { s with freeCount := k } := by
  refine ⟨?_, rfl, rfl, rfl, fun _ => rfl⟩
  constructor <;> simp

theorem returnRecord_delivery (s : State) (r : Rec) : DeliveryOnly s (returnRecord s r) :=
  (freeCount_delivery s _).trans (unnameIn_delivery _ _)

theorem returnRecords_delivery (s : State) (rs : List Rec) : DeliveryOnly s (returnRecords s rs) :=
  foldl_keeps DeliveryOnly .refl .trans _ returnRecord_delivery rs s

/-! ### A character sent -/

theorem startCut_only (s : State) (c : CircuitNo) : OnlyCircuit c s (startCut s c) :=
  (modSender_only s c _).trans (takeNext_only _ c)

theorem finishCut_delivery (s : State) (c : CircuitNo) (r : Rec) : DeliveryOnly s (finishCut s c r) :=
  ((modSender_only s c _).delivery.trans (returnRecord_delivery _ r)).trans (select_only _ c).delivery

theorem finishDelivery_delivery (s : State) (c : CircuitNo) (r : Rec) : DeliveryOnly s (finishDelivery s c r) :=
  ((modSender_only s c _).delivery.trans (returnRecord_delivery _ r)).trans (select_only _ c).delivery

theorem makeBreak_only (s : State) (c : CircuitNo) (r : Rec) (i : Nat) (b : Rec) : OnlyCircuit c s (makeBreak s c r i b) :=
  ((modSender_only s c _).trans (modQueue_only _ c _)).trans (carryRecord_only _ c b true)

theorem takeBreak_only (s : State) (c : CircuitNo) (r : Rec) : OnlyCircuit c s (takeBreak s c r) := by
  unfold takeBreak
  split
  · exact takeNext_only s c
  · split
    · exact takeNext_only s c
    · split
      · exact makeBreak_only s c r _ _
      · exact takeNext_only s c

theorem handBackCurrent_delivery (s : State) (c : CircuitNo) (r : Rec) (f : RecRef) :
    DeliveryOnly s (handBackCurrent s c r f) := by
  unfold handBackCurrent
  split
  · exact returnRecord_delivery s r
  · exact (modQueue_only s c _).delivery

theorem handBack_delivery (s : State) (c : CircuitNo) (r : Rec) : DeliveryOnly s (handBack s c r) := by
  unfold handBack
  split
  · exact returnRecord_delivery s r
  · split
    · exact handBackCurrent_delivery s c r _
    · exact (modSlot_delivery s _ _ fun x => slotCore_dropReader x _).trans (handBackCurrent_delivery _ c _ _)

theorem closeEnds_delivery (s : State) (c : CircuitNo) (r : Rec) (last : Phase) : DeliveryOnly s (closeEnds s c r last) := by
  simp only [closeEnds]
  split
  · exact (select_only _ c).delivery.after ((handBack_delivery _ c _).after (modSender_only s c _).delivery)
  · exact (enterPausing_only _ c).delivery.after ((handBack_delivery _ c _).after (modSender_only s c _).delivery)

theorem goOn_delivery (s : State) (c : CircuitNo) (r : Rec) (last : Phase) : DeliveryOnly s (goOn s c r last) := by
  simp only [goOn]
  split
  · split
    · exact closeEnds_delivery s c r last
    · exact (takeNext_only s c).delivery
  · split
    · exact ((modSender_only s c _).trans (takeBreak_only _ c r)).delivery
    · exact (takeNext_only s c).delivery

theorem recordSent_delivery (s : State) (c : CircuitNo) (r : Rec) (last : Phase) : DeliveryOnly s (recordSent s c r last) := by
  simp only [recordSent]
  split
  · split
    · exact finishCut_delivery s c r
    · exact (takeNext_only s c).delivery
  · split
    · exact (startCut_only s c).delivery
    · split
      · exact (modSender_only s c _).delivery.trans (finishDelivery_delivery _ c r)
      · exact (modSender_only s c _).delivery.trans (goOn_delivery _ c r last)

theorem reportSent_report (s : State) (c : CircuitNo) : ReportOnly s (reportSent s c) := by
  simp only [reportSent]
  split
  · split
    · exact ((modSender_only s c _).trans (select_only _ c)).report
    · exact (takeNext_only s c).report
  · split
    · exact (startCut_only s c).report
    · split
      · exact ((modSender_only s c _).report.trans (reportLeaves_report _)).trans (select_only _ c).report
      · exact (takeNext_only s c).report

theorem charSent_delivery (s : State) (c : CircuitNo) : DeliveryOnly s (charSent s c) := by
  simp only [charSent]
  split
  · exact .refl s
  · split
    · exact (modSender_only s c _).delivery
    · exact (reportSent_report _ c).delivery.after (modSender_only s c _).delivery
    · exact (recordSent_delivery _ c _ _).after (modSender_only s c _).delivery

/-! ### Making records -/

theorem addPending_delivery (s : State) (n : SlotNo) : DeliveryOnly s (addPending s n) :=
  modSlot_delivery s n _ fun _ => rfl

theorem makeFree_delivery (s : State) (c : CircuitNo) (n : SlotNo) (r : Rec) : DeliveryOnly s (makeFree s c n r) :=
  ((freeCount_delivery s _).trans (addPending_delivery _ n)).trans (joinQueue_only _ c r).delivery

theorem miss_delivery (s : State) (c : CircuitNo) : DeliveryOnly s (miss s c) :=
  (modSender_only s c _).delivery.trans (raise_report _ _ _).delivery

theorem raiseMissed_report (s : State) (c : CircuitNo) (k : Option Key) : ReportOnly s (raiseMissed s c k) := by
  unfold raiseMissed
  split
  · exact raise_report s _ _
  · exact .refl s

/-- A place in a step at which nothing comes leaves the state as it is. -/
theorem inGap_none (f : State → Instr → State) (s : State) (h : s.meanwhile = []) : inGap f s = s := by
  simp only [inGap, h, List.headD_nil, List.foldl_nil, List.tail_nil]
  rw [← h]

/-- Events taken in the middle of a step that are each a matter of deliveries are one together. -/
theorem inGap_delivery (f : State → Instr → State) (h : ∀ s i, DeliveryOnly s (f s i)) (s : State) :
    DeliveryOnly s (inGap f s) := by
  refine DeliveryOnly.trans ?_ (foldl_keeps DeliveryOnly .refl .trans f h _ _)
  refine ⟨?_, rfl, rfl, rfl, fun _ => rfl⟩
  constructor <;> simp [List.tail_suffix]

theorem displaceAt_delivery (s : State) (c : CircuitNo) (i : Nat) (old : Rec) (n : SlotNo) (r : Rec) :
    DeliveryOnly s (displaceAt s c i old n r) :=
  (((((modQueue_only s c _).delivery.trans (unnameIn_delivery _ _)).trans (modSender_only _ c _).delivery).trans
    (raiseMissed_report _ c _).delivery).trans (addPending_delivery _ n)).trans (joinQueue_only _ c r).delivery

theorem motorReady_only (c : CircuitNo) (s : State) : OnlyCircuit c s (motorReady c s) := by
  unfold motorReady
  split
  · exact (modSender_only s c _).trans (select_only _ c)
  · exact .refl c s

theorem takenBeforeTurn_delivery (s : State) (i : Instr) : DeliveryOnly s (takenBeforeTurn s i) := by
  unfold takenBeforeTurn
  split
  · split
    · exact charSent_delivery s _
    · exact .refl s
  · split
    · exact (motorReady_only _ s).delivery
    · exact .refl s
  · exact .refl s

theorem turnFor_delivery (n : SlotNo) (r : Rec) (s : State) (c : CircuitNo) : DeliveryOnly s (turnFor n r s c) := by
  unfold turnFor
  split
  · exact makeFree_delivery s c n r
  · split
    · split
      · exact miss_delivery s c
      · split
        · exact displaceAt_delivery s c _ _ n r
        · exact miss_delivery s c
    · exact miss_delivery s c

theorem makeTurn_delivery (n : SlotNo) (r : Rec) (s : State) (c : CircuitNo) : DeliveryOnly s (makeTurn n r s c) :=
  (inGap_delivery _ takenBeforeTurn_delivery s).trans (turnFor_delivery n r _ c)

/-- With nothing coming in its middle a making is its circuits' turns, one after the other. -/
theorem makeTurn_none (n : SlotNo) (r : Rec) (s : State) (c : CircuitNo) (h : s.meanwhile = []) :
    makeTurn n r s c = turnFor n r s c := by
  rw [makeTurn, inGap_none _ s h]

theorem makeRecords_delivery (s : State) (cs : List CircuitNo) (n : SlotNo) (r : Rec) :
    DeliveryOnly s (makeRecords s cs n r) :=
  foldl_keeps DeliveryOnly .refl .trans _ (makeTurn_delivery n r) cs s

theorem makeFor_delivery (s : State) (n : SlotNo) (t : TakeNo) (k : RecKind) (gap : List TakeNo) (but : List CircuitNo) :
    DeliveryOnly s (makeFor s n t k gap but) := by
  unfold makeFor
  split
  · exact .refl s
  · exact makeRecords_delivery s _ n _

/-! ### Groups with no codes -/

theorem sendEmpty_delivery (fuel : Nat) (s : State) : DeliveryOnly s (sendEmpty fuel s) := by
  induction fuel generalizing s with
  | zero => exact .refl s
  | succ fuel ih =>
    unfold sendEmpty
    split
    · exact .refl s
    · exact (charSent_delivery s _).trans (ih _)

theorem atOnce_delivery (s : State) : DeliveryOnly s (atOnce s) := sendEmpty_delivery _ s

/-- R49: with no empty group in progress nothing falls due at once. -/
theorem atOnce_none (s : State) (h : dueAtOnce s = none) : atOnce s = s := by
  show sendEmpty (4194303 + 1) s = s
  unfold sendEmpty
  rw [h]

end Sys2Proof.Machine
end

