-- ==== Sys2Proof/Laws/StoreFrames.lean ====
section
/-!
SUPPORT. Laws/StoreFrames.lean: what the store's operations leave alone, in the terms of Safety.lean.
-/
namespace Sys2Proof.Machine

open Sys2Proof

theorem StoryOnly.refl (n : SlotNo) (s : State) : StoryOnly n s s := ⟨.refl s, rfl, rfl, rfl, fun _ _ => rfl⟩

theorem StoryOnly.trans {n : SlotNo} {s t u : State} (h : StoryOnly n s t) (g : StoryOnly n t u) : StoryOnly n s u where
  tables := h.tables.trans g.tables
  lines := g.lines.trans h.lines
  recency := g.recency.trans h.recency
  message := by
    have a := h.message
    have b := g.message
    have e : { u.mgmt with reports := s.mgmt.reports } =
        { ({ u.mgmt with reports := t.mgmt.reports } : Mgmt) with reports := s.mgmt.reports } := rfl
    rw [e, b, a]
  others m e := (g.others m e).trans (h.others m e)

theorem StoryOnly.after {n : SlotNo} {s t u : State} (g : StoryOnly n t u) (h : StoryOnly n s t) : StoryOnly n s u :=
  h.trans g

theorem DeliveryOnly.story {s t : State} (n : SlotNo) (h : DeliveryOnly s t) : StoryOnly n s t :=
  ⟨h.tables, h.lines, h.recency, h.message, fun m _ => h.stories m⟩

theorem modSlot_story (s : State) (n : SlotNo) (f : Slot → Slot) : StoryOnly n s (modSlot s n f) := by
  refine ⟨?_, rfl, rfl, rfl, fun m e => congrArg slotCore (modAt_other _ _ e)⟩
  constructor <;> simp

theorem modTake_story (s : State) (n : SlotNo) (t : TakeNo) (f : Take → Take) : StoryOnly n s (modTake s n t f) :=
  modSlot_story s n _

theorem raiseTakeCut_report (s : State) (n : SlotNo) (t : TakeNo) : ReportOnly s (raiseTakeCut s n t) := by
  unfold raiseTakeCut
  split
  · exact raise_report s _ _
  · exact .refl s

theorem writeChar_story (s : State) (n : SlotNo) (t : TakeNo) (h : House) : StoryOnly n s (writeChar s n t h) := by
  simp only [writeChar]
  split
  · exact .refl n s
  · split
    · split
      · split
        · exact modSlot_story s n _
        · exact ((raiseTakeCut_report _ n t).delivery.story n).after (modTake_story s n t _)
      · exact modTake_story s n t _
    · exact .refl n s

theorem releaseTake_story (s : State) (n : SlotNo) (t : TakeNo) (k : RecKind) (gap : List TakeNo) :
    StoryOnly n s (releaseTake s n t k gap) :=
  ((makeFor_delivery _ n t k gap []).story n).after (modTake_story s n t _)

theorem searchGate_story (fuel : Nat) (s : State) (n : SlotNo) : StoryOnly n s (searchGate fuel s n) := by
  induction fuel generalizing s with
  | zero => exact .refl n s
  | succ fuel ih =>
    unfold searchGate
    split
    · exact .refl n s
    · exact (ih _).after (releaseTake_story s n _ _ _)

theorem gateSearch_story (s : State) (n : SlotNo) : StoryOnly n s (gateSearch s n) := searchGate_story 12 s n

theorem expireWait_story (s : State) (n : SlotNo) (m : TakeNo) : StoryOnly n s (expireWait s n m) := by
  have a := modSlot_story s n fun x => { x with passed := unionOf x.passed (setOf (passedBy s.slots[n] m)) }
  have b := fun u => foldl_keeps (StoryOnly n) (.refl n) .trans
    (fun u t => releaseTake u n t .new (gapNotice (passedBy s.slots[n] m) t)) (fun u t => releaseTake_story u n t _ _)
    (waitingUpTo s.slots[n] m) u
  simp only [expireWait]
  split
  · exact ((raise_report _ _ _).delivery.story n).after ((gateSearch_story _ n).after ((b _).after a))
  · exact (gateSearch_story _ n).after ((b _).after a)

theorem releaseLate_story (s : State) (n : SlotNo) (t : TakeNo) : StoryOnly n s (releaseLate s n t) :=
  (releaseTake_story _ n t _ _).after (modSlot_story s n _)

theorem gate_story (s : State) (n : SlotNo) (t : TakeNo) : StoryOnly n s (gate s n t) := by
  simp only [gate]
  split
  · exact (gateSearch_story _ n).after (releaseLate_story s n t)
  · split
    · exact (gateSearch_story _ n).after (releaseTake_story s n t _ _)
    · split
      · exact (expireWait_story _ n t).after (modTake_story s n t _)
      · exact modTake_story s n t _

/-! ### Records removed or detached -/

theorem detachCarried_delivery (p : Rec → Bool) (line : CutLine) (s : State) (c : CircuitNo) :
    DeliveryOnly s (detachCarried p line s c) := by
  simp only [detachCarried]
  split
  · split
    · exact (unnameIn_delivery _ _).after (modSender_only s c _).delivery
    · exact .refl s
  · exact .refl s

theorem circuitTraffic_only (s : State) (c : CircuitNo) (q : Circuit → List Rec) (y : Circuit → Sender) :
    OnlyCircuit c s (modCircuit s c fun x => { x with queue := q x, sender := y x }) :=
  .of_eq (q := q s.circuits[c]) (y := y s.circuits[c]) rfl

theorem pullCircuit_delivery (p : Rec → Bool) (line : CutLine) (s : State) (c : CircuitNo) :
    DeliveryOnly s (pullCircuit p line s c) := by
  simp only [pullCircuit]
  refine (detachCarried_delivery p line _ c).after ((returnRecords_delivery _ _).after (OnlyCircuit.delivery (c := c) ?_))
  exact circuitTraffic_only s c (fun _ => s.circuits[c].queue.filter fun r => !p r)
    fun x => { x.sender with chain := s.circuits[c].sender.chain.filter fun r => !p r }

theorem pullRecords_delivery (p : Rec → Bool) (line : CutLine) (s : State) : DeliveryOnly s (pullRecords p line s) :=
  foldl_keeps DeliveryOnly .refl .trans _ (pullCircuit_delivery p line) _ s

/-- A change to every circuit's queue and sender is a matter of deliveries. -/
theorem mapCircuits_delivery (s : State) (f : Circuit → Circuit)
    (h : ∀ x, (f x).desc = x.desc ∧ (f x).outOfService = x.outOfService) :
    DeliveryOnly s { s with circuits := mapAll s.circuits f } := by
  refine ⟨?_, rfl, rfl, rfl, fun _ => rfl⟩
  constructor <;> simp [h]

/-! ### Substitutes and the end of a take -/

theorem moveReaders_delivery (s : State) (n : SlotNo) (t : TakeNo) : DeliveryOnly s (moveReaders s n t) := by
  apply mapCircuits_delivery
  simp

theorem rewriteQueued_delivery (s : State) (n : SlotNo) (t : TakeNo) : DeliveryOnly s (rewriteQueued s n t) := by
  apply mapCircuits_delivery
  simp

theorem replaceText_story (s : State) (n : SlotNo) (t : TakeNo) : StoryOnly n s (replaceText s n t) :=
  ((rewriteQueued_delivery _ n t).story n).after ((modSlot_story _ n _).after
    (((moveReaders_delivery _ n t).story n).after ((modSlot_story _ n _).after
      ((pullRecords_delivery _ _ s).story n))))

theorem storeSubstitute_story (s : State) (n : SlotNo) (t : TakeNo) : StoryOnly n s (storeSubstitute s n t) := by
  have a := replaceText_story s n t
  unfold storeSubstitute
  dsimp only
  generalize replaceText s n t = w at a
  split
  · exact a
  · split
    · exact ((makeFor_delivery _ n t _ _ _).story n).after ((modTake_story w n t _).after a)
    · exact (gate_story _ n t).after a

theorem endCut_story (s : State) (n : SlotNo) (t : TakeNo) : StoryOnly n s (endCut s n t) := by
  simp only [endCut]
  split
  · exact .refl n s
  · split
    · exact .refl n s
    · exact ((raiseTakeCut_report _ n t).delivery.story n).after (modTake_story s n t _)

theorem slotToFront_tables (s : State) (n : SlotNo) : TablesKept s (slotToFront s n) := by constructor <;> simp

theorem slotToTail_tables (s : State) (n : SlotNo) : TablesKept s (slotToTail s n) := by constructor <;> simp

/-- R71: ending a take changes the story, deliveries and reports, and moves the slot to the front. -/
theorem takeEnds_frame (s : State) (n : SlotNo) (t : TakeNo) (cut : Bool) :
    TablesKept s (takeEnds s n t cut) ∧ (takeEnds s n t cut).lines = s.lines ∧
      { (takeEnds s n t cut).mgmt with reports := s.mgmt.reports } = s.mgmt ∧
      (∀ m : SlotNo, m ≠ n → slotCore (takeEnds s n t cut).slots[m] = slotCore s.slots[m]) ∧
      (takeEnds s n t cut).recency = if takeAt s n t = none then s.recency else toFront n s.recency := by
  have key : ∀ w u, StoryOnly n s w → StoryOnly n (slotToFront w n) u →
      TablesKept s u ∧ u.lines = s.lines ∧ { u.mgmt with reports := s.mgmt.reports } = s.mgmt ∧
        (∀ m : SlotNo, m ≠ n → slotCore u.slots[m] = slotCore s.slots[m]) ∧ u.recency = toFront n s.recency := by
    intro w u pre post
    refine ⟨pre.tables.trans ((slotToFront_tables w n).trans post.tables), post.lines.trans pre.lines, ?_,
      fun m e => (post.others m e).trans (pre.others m e), ?_⟩
    · have a := pre.message
      have b := post.message
      have e : { u.mgmt with reports := s.mgmt.reports } =
          { ({ u.mgmt with reports := (slotToFront w n).mgmt.reports } : Mgmt) with reports := s.mgmt.reports } := rfl
      rw [e, b]
      exact a
    · rw [post.recency, slotToFront_recency, pre.recency]
  unfold takeEnds
  cases h : takeAt s n t with
  | none => exact ⟨.refl s, rfl, rfl, fun _ _ => rfl, rfl⟩
  | some k =>
    have pre : StoryOnly n s (modTake (if cut then endCut s n t else s) n t fun x => { x with fillingLine := none }) := by
      refine (modTake_story _ n t _).after ?_
      split
      · exact endCut_story s n t
      · exact .refl n s
    dsimp only
    cases k.replacement with
    | none => exact key _ _ pre (gate_story _ n t)
    | some x => exact key _ _ pre (storeSubstitute_story _ n t)

end Sys2Proof.Machine
end

