-- ==== Sys2Proof/Laws/LineFrames.lean ====
section
/-!
SUPPORT. Laws/LineFrames.lean: what the management buffer's, the framers' and the receivers' operations leave alone.
-/
namespace Sys2Proof.Machine

open Sys2Proof

/-! ### Text in a body -/

theorem heldSlashes_none (f : Framer) (h : f.held = 0) : heldSlashes f = [] := by simp [heldSlashes, h]

theorem passedText_none (f : Framer) (x : House) (h : f.held = 0) : passedText f x = [x] := by
  simp [passedText, heldSlashes_none f h]

@[simp] theorem passedText_length (f : Framer) (x : House) : (passedText f x).length = f.held.val + 1 := by
  simp [passedText, heldSlashes]

@[simp] theorem afterText_state (f : Framer) (x : House) : (afterText f x).state = f.state := rfl
@[simp] theorem afterText_kind (f : Framer) (x : House) : (afterText f x).kind = f.kind := rfl
@[simp] theorem afterText_held (f : Framer) (x : House) : (afterText f x).held = 0 := rfl
@[simp] theorem afterText_header (f : Framer) (x : House) : (afterText f x).header = f.header := rfl
@[simp] theorem afterText_takeRef (f : Framer) (x : House) : (afterText f x).takeRef = f.takeRef := rfl

/-- The tables and every line are as they were. -/
structure LinesSame (s t : State) : Prop where
  tables : TablesKept s t
  lines : t.lines = s.lines

theorem LinesSame.refl (s : State) : LinesSame s s := ⟨.refl s, rfl⟩

theorem LinesSame.after {s t u : State} (g : LinesSame t u) (h : LinesSame s t) : LinesSame s u :=
  ⟨h.tables.trans g.tables, g.lines.trans h.lines⟩

theorem DeliveryOnly.linesSame {s t : State} (h : DeliveryOnly s t) : LinesSame s t := ⟨h.tables, h.lines⟩

theorem StoryOnly.linesSame {n : SlotNo} {s t : State} (h : StoryOnly n s t) : LinesSame s t := ⟨h.tables, h.lines⟩

theorem LinesSame.line {s t : State} (l : LineNo) (h : LinesSame s t) : LineOnly l s t :=
  ⟨h.tables, fun m _ => by rw [h.lines]⟩

theorem LineOnly.refl (l : LineNo) (s : State) : LineOnly l s s := ⟨.refl s, fun _ _ => rfl⟩

theorem LineOnly.after {l : LineNo} {s t u : State} (g : LineOnly l t u) (h : LineOnly l s t) : LineOnly l s u :=
  ⟨h.tables.trans g.tables, fun m e => (g.others m e).trans (h.others m e)⟩

theorem modMgmt_same (s : State) (f : Mgmt → Mgmt) (h : ∀ m, (f m).reportCircuit = m.reportCircuit) :
    LinesSame s (modMgmt s f) := by
  refine ⟨?_, rfl⟩
  constructor <;> simp [h]

theorem modLine_only (s : State) (l : LineNo) (f : Line → Line)
    (h : ∀ x, (f x).desc = x.desc ∧ (f x).outOfService = x.outOfService) : LineOnly l s (modLine s l f) := by
  refine ⟨?_, fun m e => modAt_other _ _ e⟩
  constructor <;> try simp
  intro m
  have a := modAt_keeps s.lines l m f Line.desc fun x => (h x).1
  have b := modAt_keeps s.lines l m f Line.outOfService fun x => (h x).2
  exact ⟨a, b⟩

theorem modFramer_only (s : State) (l : LineNo) (f : Framer → Framer) : LineOnly l s (modFramer s l f) :=
  modLine_only s l _ (by intro x; exact ⟨rfl, rfl⟩)

theorem modReceiver_only (s : State) (l : LineNo) (f : Receiver → Receiver) : LineOnly l s (modReceiver s l f) :=
  modLine_only s l _ (by intro x; exact ⟨rfl, rfl⟩)

theorem modLineCounters_only (s : State) (l : LineNo) (f : LineCounters → LineCounters) :
    LineOnly l s (modLineCounters s l f) := modLine_only s l _ (by intro x; exact ⟨rfl, rfl⟩)

/-! ### The management buffer -/

theorem releaseBuffer_same (s : State) : LinesSame s (releaseBuffer s) := modMgmt_same s _ (by intro m; rfl)

theorem askBuffer_only (s : State) (l : LineNo) : LineOnly l s (askBuffer s l).1 := by
  unfold askBuffer
  split
  · exact (modMgmt_same s (fun m => { m.released with buffer := .opened, holder := some l }) (by intro m; rfl)).line l
  · exact ((placeReply_report _ _).delivery.linesSame.line l).after (modLineCounters_only s l _)

theorem headerRead_same (s : State) (v : Level) (g : Option Text) : LinesSame s (headerRead s v g) :=
  modMgmt_same s _ (by intro m; rfl)

theorem collectChar_same (s : State) (h : House) : LinesSame s (modMgmt s (collectChar h)) :=
  modMgmt_same s _ fun m => by
    unfold collectChar
    split
    · rfl
    · split <;> rfl

theorem endRequestLine_same (s : State) : LinesSame s (modMgmt s endRequestLine) :=
  modMgmt_same s _ fun m => by
    unfold endRequestLine
    dsimp only
    split
    · rfl
    · split <;> rfl

theorem dropMessage_same (s : State) : LinesSame s (dropMessage s) := by
  unfold dropMessage
  split
  · exact releaseBuffer_same s
  · exact (releaseBuffer_same _).after (placeReply_report _ _).delivery.linesSame

theorem messageClosed_same (s : State) : LinesSame s (messageClosed s) := by
  have a : LinesSame s (modMgmt s fun m => { m with buffer := .executing }) := modMgmt_same s _ (by intro m; rfl)
  unfold messageClosed
  dsimp only
  generalize (modMgmt s fun m => { m with buffer := .executing }) = w at *
  split
  · exact (releaseBuffer_same _).after a
  · split
    · exact (releaseBuffer_same _).after ((placeReply_report _ _).delivery.linesSame.after a)
    · split
      · exact (releaseBuffer_same _).after ((placeReply_report _ _).delivery.linesSame.after
          ((raise_report _ _ _).delivery.linesSame.after a))
      · exact (modMgmt_same w _ (by intro m; rfl)).after a

/-! ### The framers -/

theorem passOn_same (s : State) (l : LineNo) (h : House) : LinesSame s (passOn s l h) := by
  unfold passOn
  dsimp only
  split
  · split
    · exact (writeChar_story s _ _ h).linesSame
    · exact .refl s
  · split
    · exact endRequestLine_same s
    · split
      · exact .refl s
      · exact collectChar_same s h
  · exact .refl s

theorem passSlashes_same (s : State) (l : LineNo) (k : Nat) : LinesSame s (passSlashes s l k) := by
  induction k generalizing s with
  | zero => exact .refl s
  | succ k ih => exact (ih _).after (passOn_same s l _)

theorem takeEnds_same (s : State) (n : SlotNo) (t : TakeNo) (cut : Bool) : LinesSame s (takeEnds s n t cut) :=
  ⟨(takeEnds_frame s n t cut).1, (takeEnds_frame s n t cut).2.1⟩

theorem endMessageCut_same (s : State) (l : LineNo) : LinesSame s (endMessageCut s l) := by
  unfold endMessageCut
  dsimp only
  split
  · split
    · exact (takeEnds_same _ _ _ _).after (passSlashes_same s l _)
    · exact passSlashes_same s l _
  · exact (dropMessage_same _).after (passSlashes_same s l _)
  · split
    · exact .refl s
    · exact dropMessage_same s
  · exact .refl s

theorem toHunt_only (s : State) (l : LineNo) : LineOnly l s (toHunt s l) := modFramer_only s l _

theorem toDiscard_only (s : State) (l : LineNo) (b : Bool) : LineOnly l s (toDiscard s l b) := modFramer_only s l _

theorem framerAbandons_only (s : State) (l : LineNo) : LineOnly l s (framerAbandons s l) :=
  (toHunt_only _ l).after ((endMessageCut_same s l).line l)

theorem framerBreaks_only (s : State) (l : LineNo) : LineOnly l s (framerBreaks s l) :=
  (modFramer_only _ l _).after (framerAbandons_only s l)

theorem takeOpening_only (s : State) (l : LineNo) (k : MessageKind) : LineOnly l s (takeOpening s l k) := by
  have a := fun g f => (modFramer_only (modLineCounters s l g) l f).after (modLineCounters_only s l g)
  unfold takeOpening
  dsimp only
  split
  · exact (modFramer_only _ l _).after (a _ _)
  · split
    · exact (modFramer_only _ l _).after ((askBuffer_only _ l).after (a _ _))
    · exact (toDiscard_only _ l true).after ((askBuffer_only _ l).after (a _ _))

theorem huntChar_only (s : State) (l : LineNo) (h : House) : LineOnly l s (huntChar s l h) := by
  unfold huntChar
  dsimp only
  split
  · split
    · exact modLineCounters_only s l _
    · exact modFramer_only s l _
  · split
    · exact takeOpening_only s l _
    · split
      · exact takeOpening_only s l _
      · exact (modLineCounters_only _ l _).after (modFramer_only s l _)

theorem headerFault_only (s : State) (l : LineNo) (b : Bool) :
    LineOnly l s (copyHeaderFault s l b) ∧ LineOnly l s (managementHeaderFault s l b) :=
  ⟨(toDiscard_only _ l b).after ((modLineCounters_only _ l _).after ((raise_report s _ _).delivery.linesSame.line l)),
    (toDiscard_only _ l b).after (((dropMessage_same _).after (raise_report s _ _).delivery.linesSame).line l)⟩

theorem handOver_only (s : State) (l : LineNo) (h : CopyHeader) : LineOnly l s (handOver s l h).1 := by
  unfold handOver
  split
  · split <;> dsimp only
    · exact (modLineCounters_only _ l _).after ((raise_report s _ _).delivery.linesSame.line l)
    · next n _ =>
      have b : LinesSame (modSlot s n fun _ => { Slot.freed with state := .occupied, key := some h.key })
          (allocate s n h.key) := ⟨slotToFront_tables _ n, rfl⟩
      exact ((modSlot_story _ n _).linesSame.after (b.after (modSlot_story s n _).linesSame)).line l
  · next n _ =>
    split
    · dsimp only
      exact (modLineCounters_only _ l _).after ((raise_report s _ _).delivery.linesSame.line l)
    · split
      · exact (modSlot_story s n _).linesSame.line l
      · split <;> dsimp only
        · exact (modSlot_story s n _).linesSame.line l
        · exact modLineCounters_only s l _

theorem headerEnds_only (s : State) (l : LineNo) : LineOnly l s (headerEnds s l) := by
  unfold headerEnds
  dsimp only
  split
  · split
    · exact (headerFault_only s l true).1
    · next h _ =>
      unfold handCopyHeader
      dsimp only
      split
      · exact (modFramer_only _ l _).after (handOver_only s l h)
      · exact (toDiscard_only _ l true).after (handOver_only s l h)
  · split
    · exact (headerFault_only s l true).2
    · exact (modFramer_only _ l _).after ((headerRead_same s _ _).line l)

theorem headerChar_only (s : State) (l : LineNo) (h : House) : LineOnly l s (headerChar s l h) := by
  unfold headerChar
  split
  · exact headerEnds_only s l
  · split
    · exact .refl l s
    · split
      · exact modFramer_only s l _
      · unfold headerFault
        split
        · exact (headerFault_only s l false).1
        · exact (headerFault_only s l false).2

theorem takeClosing_only (s : State) (l : LineNo) : LineOnly l s (takeClosing s l) := by
  unfold takeClosing
  dsimp only
  split
  · split
    · exact ((takeEnds_same _ _ _ _).line l).after (toHunt_only s l)
    · exact toHunt_only s l
  · exact ((messageClosed_same _).line l).after (toHunt_only s l)
  · exact toHunt_only s l

theorem openingInBody_only (s : State) (l : LineNo) (k : MessageKind) : LineOnly l s (openingInBody id s l k) := by
  simp only [openingInBody, id, ite_self]
  exact (takeOpening_only _ l k).after (((endMessageCut_same _ l).line l).after (modFramer_only s l _))

theorem decide27_only (s : State) (l : LineNo) (k : Nat) (h : House) : LineOnly l s (decide27 s l k h) :=
  (modFramer_only _ l _).after (((passOn_same _ l h).after (passSlashes_same s l k)).line l)

theorem bodyChar_only (s : State) (l : LineNo) (h : House) : LineOnly l s (bodyChar id s l h) := by
  unfold bodyChar
  dsimp only
  split
  · split
    · exact modFramer_only s l _
    · exact (modFramer_only _ l _).after ((passOn_same s l h).line l)
  · split
    · split
      · exact modFramer_only s l _
      · exact decide27_only s l 1 h
    · split
      · exact openingInBody_only s l _
      · split
        · exact openingInBody_only s l _
        · split
          · exact takeClosing_only s l
          · exact decide27_only s l 2 h

theorem framerChar_only (s : State) (l : LineNo) (h : House) : LineOnly l s (framerChar id s l h) := by
  unfold framerChar
  split
  · exact huntChar_only s l h
  · exact headerChar_only s l h
  · exact bodyChar_only s l h
  · exact bodyChar_only s l h
  · exact bodyChar_only s l h
  · exact .refl l s

/-! ### The receivers -/

theorem reloadSilence_only (s : State) (l : LineNo) : LineOnly l s (reloadSilence s l) :=
  modLine_only s l _ (by intro x; exact ⟨rfl, rfl⟩)

theorem receiveCode_only (s : State) (l : LineNo) (code : LineCode) : LineOnly l s (receiveCode id s l code) := by
  unfold receiveCode
  dsimp only
  split
  · exact (framerChar_only _ l _).after (modLine_only s l _ (by intro x; exact ⟨rfl, rfl⟩))
  · exact modLine_only s l _ (by intro x; exact ⟨rfl, rfl⟩)

theorem goodCharacter_only (s : State) (l : LineNo) (code : LineCode) : LineOnly l s (goodCharacter id s l code) :=
  (modLine_only _ l _ (by intro x; exact ⟨rfl, rfl⟩)).after ((reloadSilence_only _ l).after (receiveCode_only s l code))

theorem badCharacter_only (s : State) (l : LineNo) (code : LineCode) : LineOnly l s (badCharacter s l code) :=
  (modLine_only _ l _ (by intro x; exact ⟨rfl, rfl⟩)).after ((reloadSilence_only _ l).after
    (((raise_report _ _ _).delivery.linesSame.line l).after ((modLineCounters_only _ l _).after
      (framerChar_only s l _))))

/-! ### Another line's request between a drop and a request (R31, R159) -/

/-- The framer's answer depends on what comes between a drop and a request only where it drops a management message at a
management opening. -/
theorem framerChar_between (between : State → State) (s : State) (l : LineNo) (h : House)
    (n : ¬(s.lines[l].framer.state = .manageBody ∧ s.lines[l].framer.held = 2 ∧ h = ch 'M')) :
    framerChar between s l h = framerChar id s l h := by
  have key : bodyChar between s l h = bodyChar id s l h := by
    simp only [bodyChar, openingInBody]
    split
    · rfl
    · split
      · rfl
      · next h0 h1 =>
        have two : s.lines[l].framer.held = 2 := by omega
        split
        · simp
        · split
          · next hm =>
            rw [if_neg (fun e => n ⟨e.1, two, hm⟩), if_neg (fun e => n ⟨e.1, two, hm⟩)]
          · rfl
  simp only [framerChar, key]

/-- With nothing coming in the middle of the step there is nothing between the drop and the request. -/
theorem framerChar_alone (s : State) (l : LineNo) (h : House) (e : s.meanwhile = []) :
    framerChar (betweenDropAndRequest l) s l h = framerChar id s l h := by
  have key : ∀ k, openingInBody (betweenDropAndRequest l) s l k = openingInBody id s l k := by
    intro k
    have a := ((endMessageCut_same (modFramer s l fun f => { f with held := 0 }) l).tables).meanwhile
    simp only [modFramer, modLine_meanwhile, e, List.suffix_nil] at a
    simp only [openingInBody, betweenDropAndRequest, id]
    rw [inGap_none _ _ (by simpa [modFramer] using a)]
  simp only [framerChar, bodyChar, key]

theorem openedByAnother_tables (l : LineNo) (s : State) (i : Instr) : TablesKept s (openedByAnother l s i) := by
  unfold openedByAnother
  split
  · dsimp only
    split
    · exact (goodCharacter_only s _ _).tables
    · exact .refl s
  · exact .refl s

theorem betweenDropAndRequest_tables (l : LineNo) (s : State) : TablesKept s (betweenDropAndRequest l s) := by
  refine TablesKept.trans ?_ (foldl_keeps TablesKept .refl .trans _ (openedByAnother_tables l) _ _)
  constructor <;> simp [List.tail_suffix]

theorem framerChar_tables (s : State) (l : LineNo) (h : House) :
    TablesKept s (framerChar (betweenDropAndRequest l) s l h) := by
  by_cases n : s.lines[l].framer.state = .manageBody ∧ s.lines[l].framer.held = 2 ∧ h = ch 'M'
  · have o : framerChar (betweenDropAndRequest l) s l h = openingInBody (betweenDropAndRequest l) s l .management := by
      simp only [framerChar, n.1, bodyChar, n.2.1, n.2.2]
      rfl
    rw [o]
    simp only [openingInBody]
    refine (TablesKept.trans ?_ (takeOpening_only _ l _).tables)
    have a := (endMessageCut_same (modFramer s l fun f => { f with held := 0 }) l).tables
    have b := (modFramer_only s l fun f => { f with held := 0 }).tables.trans a
    split
    · exact b.trans (betweenDropAndRequest_tables l _)
    · exact b
  · rw [framerChar_between _ s l h n]
    exact (framerChar_only s l h).tables

theorem receiveCode_tables (s : State) (l : LineNo) (code : LineCode) :
    TablesKept s (receiveCode (betweenDropAndRequest l) s l code) := by
  have a := (modLine_only s l (fun y => { y with shift :=
    (convertIn s.banks[s.lines[l].desc.bank] s.lines[l].desc.width s.lines[l].shift code).2 })
    (by intro x; exact ⟨rfl, rfl⟩)).tables
  unfold receiveCode
  dsimp only
  split
  · exact a.trans (framerChar_tables _ l _)
  · exact a

/-- A character that arrives changes none of the tables, on its own line or on another. -/
theorem characterArrives_tables (l : LineNo) (v : BitVec 7) (m : Bool) (s : State) :
    TablesKept s (characterArrives l v m s) := by
  unfold characterArrives
  dsimp only
  split
  · split
    · exact ((receiveCode_tables s l _).trans (reloadSilence_only _ l).tables).trans
        (modLine_only _ l _ (by intro x; exact ⟨rfl, rfl⟩)).tables
    · exact (badCharacter_only s l _).tables
  · exact .refl s

/-- With nothing coming in the middle of the step, a character changes its own line alone. -/
theorem characterArrives_only (l : LineNo) (v : BitVec 7) (m : Bool) (s : State) (e : s.meanwhile = []) :
    LineOnly l s (characterArrives l v m s) := by
  unfold characterArrives
  dsimp only
  split
  · split
    · have r : receiveCode (betweenDropAndRequest l) s l (lineCode s.lines[l].desc.width v) =
          receiveCode id s l (lineCode s.lines[l].desc.width v) := by
        simp only [receiveCode]
        split
        · exact framerChar_alone _ l _ (by simpa using e)
        · rfl
      unfold goodCharacter
      rw [r]
      exact goodCharacter_only s l _
    · exact badCharacter_only s l _
  · exact .refl l s

theorem breakBegins_only (l : LineNo) (s : State) : LineOnly l s (breakBegins l s) := by
  unfold breakBegins
  dsimp only
  split
  · exact (modLine_only _ l _ (by intro x; exact ⟨rfl, rfl⟩)).after ((framerBreaks_only _ l).after
      (((raise_report _ _ _).delivery.linesSame.line l).after (modReceiver_only s l _)))
  · exact .refl l s

theorem breakEnds_only (l : LineNo) (s : State) : LineOnly l s (breakEnds l s) := by
  unfold breakEnds
  dsimp only
  split
  · exact (reloadSilence_only _ l).after ((toHunt_only _ l).after (modReceiver_only s l _))
  · exact .refl l s

theorem lineSilent_only (l : LineNo) (s : State) : LineOnly l s (lineSilent l s) := by
  unfold lineSilent
  split
  · exact .refl l s
  · exact ((raise_report _ _ _).delivery.linesSame.line l).after (modLine_only s l _ (by intro x; exact ⟨rfl, rfl⟩))

end Sys2Proof.Machine
end

