-- ==== Sys2Proof/Laws/PerInstr.lean ====
section
/-!
SUPPORT. Laws/PerInstr.lean: the family RequestTokens, a fact about a command as it is typed: the verb and the operands of a
well-formed request are tokens of the request line (R167), so they have text, and neither a space nor an NL stands in them.
-/
namespace Sys2Proof.Laws.RequestTokens

open Sys2Proof Sys2Proof.Machine

/-- Every token of a well-formed request line has text and holds neither space nor NL. -/
def Statement (i : Instr) : Prop :=
  i.wellFormed = true → ∀ v ops, i.request? = some (v, ops) →
    ∀ t ∈ v :: ops, t ≠ [] ∧ houseSpace ∉ t ∧ houseNL ∉ t

/-- An event is no request, so the statement asks nothing of it. -/
theorem of_event (i : Instr) (h : i.request? = none) : Statement i := by
  intro _ v ops e
  rw [h] at e
  cases e

/-- The checks of `wellFormed` give what the statement says of every token. -/
theorem of_wellFormed (i : Instr) : Statement i := by
  intro w v ops e t ht
  simp only [Instr.wellFormed, e, Bool.and_eq_true] at w
  obtain ⟨⟨⟨⟨hText, hUnbroken⟩, hPlain⟩, -⟩, -⟩ := w
  have text := List.all_eq_true.mp hText t ht
  have unbroken := List.all_eq_true.mp hUnbroken t ht
  have plain := List.all_eq_true.mp hPlain t ht
  simp only [tokenHasText, tokenUnbroken, tokenPlain, decide_eq_true_eq, List.all_eq_true, Bool.and_eq_true] at text unbroken plain
  exact ⟨text, unbroken, fun h => (plain houseNL h).1 rfl⟩

theorem resetAsserted : Statement .resetAsserted := of_event _ rfl
theorem resetReleased : Statement .resetReleased := of_event _ rfl
theorem characterArrives (line : LineNo) (samples : BitVec 7) (stopMarking : Bool) : Statement (.characterArrives line samples stopMarking) := of_event _ rfl
theorem breakWatchExpires (line : LineNo) : Statement (.breakWatchExpires line) := of_event _ rfl
theorem markingIntervalExpires (line : LineNo) : Statement (.markingIntervalExpires line) := of_event _ rfl
theorem silenceTimerExpires (line : LineNo) : Statement (.silenceTimerExpires line) := of_event _ rfl
theorem unknownRequest (verb : Text) (ops : List Text) : Statement (.unknownRequest verb ops) := of_wellFormed _
theorem line (ops : List Text) : Statement (.line ops) := of_wellFormed _
theorem linebank (ops : List Text) : Statement (.linebank ops) := of_wellFormed _
theorem circuit (ops : List Text) : Statement (.circuit ops) := of_wellFormed _
theorem bankkind (ops : List Text) : Statement (.bankkind ops) := of_wellFormed _
theorem bankin (ops : List Text) : Statement (.bankin ops) := of_wellFormed _
theorem bankout (ops : List Text) : Statement (.bankout ops) := of_wellFormed _
theorem banksub (ops : List Text) : Statement (.banksub ops) := of_wellFormed _
theorem bankshift (ops : List Text) : Statement (.bankshift ops) := of_wellFormed _
theorem route (ops : List Text) : Statement (.route ops) := of_wellFormed _
theorem routeoff (ops : List Text) : Statement (.routeoff ops) := of_wellFormed _
theorem mark (ops : List Text) : Statement (.mark ops) := of_wellFormed _
theorem unmark (ops : List Text) : Statement (.unmark ops) := of_wellFormed _
theorem flip (ops : List Text) : Statement (.flip ops) := of_wellFormed _
theorem test (ops : List Text) : Statement (.test ops) := of_wellFormed _
theorem defaults (ops : List Text) : Statement (.defaults ops) := of_wellFormed _
theorem flashset (ops : List Text) : Statement (.flashset ops) := of_wellFormed _
theorem precedence (ops : List Text) : Statement (.precedence ops) := of_wellFormed _
theorem queue (ops : List Text) : Statement (.queue ops) := of_wellFormed _
theorem hold (ops : List Text) : Statement (.hold ops) := of_wellFormed _
theorem unhold (ops : List Text) : Statement (.unhold ops) := of_wellFormed _
theorem unholdall (ops : List Text) : Statement (.unholdall ops) := of_wellFormed _
theorem repeatTakes (ops : List Text) : Statement (.repeatTakes ops) := of_wellFormed _
theorem withdraw (ops : List Text) : Statement (.withdraw ops) := of_wellFormed _
theorem clearunheld (ops : List Text) : Statement (.clearunheld ops) := of_wellFormed _
theorem clearstore (ops : List Text) : Statement (.clearstore ops) := of_wellFormed _
theorem takewait (ops : List Text) : Statement (.takewait ops) := of_wellFormed _
theorem story (ops : List Text) : Statement (.story ops) := of_wellFormed _
theorem reportto (ops : List Text) : Statement (.reportto ops) := of_wellFormed _
theorem status (ops : List Text) : Statement (.status ops) := of_wellFormed _
theorem quiet (ops : List Text) : Statement (.quiet ops) := of_wellFormed _
theorem wake (ops : List Text) : Statement (.wake ops) := of_wellFormed _
theorem full (ops : List Text) : Statement (.full ops) := of_wellFormed _
theorem reduced (ops : List Text) : Statement (.reduced ops) := of_wellFormed _
theorem restart (ops : List Text) : Statement (.restart ops) := of_wellFormed _
theorem events (ops : List Text) : Statement (.events ops) := of_wellFormed _
theorem clearevent (ops : List Text) : Statement (.clearevent ops) := of_wellFormed _
theorem mask (ops : List Text) : Statement (.mask ops) := of_wellFormed _
theorem alerts (ops : List Text) : Statement (.alerts ops) := of_wellFormed _
theorem counts (ops : List Text) : Statement (.counts ops) := of_wellFormed _
theorem clearcounts (ops : List Text) : Statement (.clearcounts ops) := of_wellFormed _
theorem executionEnds : Statement .executionEnds := of_event _ rfl
theorem waitTimerExpires (slot : SlotNo) (take : TakeNo) : Statement (.waitTimerExpires slot take) := of_event _ rfl
theorem secondAgeing : Statement .secondAgeing := of_event _ rfl
theorem motorStartTimerExpires (circuit : CircuitNo) : Statement (.motorStartTimerExpires circuit) := of_event _ rfl
theorem runOnTimerExpires (circuit : CircuitNo) : Statement (.runOnTimerExpires circuit) := of_event _ rfl
theorem characterSent (circuit : CircuitNo) : Statement (.characterSent circuit) := of_event _ rfl
theorem markToSpaceTransition (line : LineNo) : Statement (.markToSpaceTransition line) := of_event _ rfl
theorem spaceToMarkTransition (line : LineNo) : Statement (.spaceToMarkTransition line) := of_event _ rfl
theorem falseStart (line : LineNo) : Statement (.falseStart line) := of_event _ rfl

end Sys2Proof.Laws.RequestTokens
end

