-- ==== Sys2Proof/Laws/Requests.lean ====
section
/-!
SUPPORT. Laws/Requests.lean: what a request command does, said once. A proof about one request cites `runRequest_serves` and
unfolds only that request's body.
-/
namespace Sys2Proof.Machine

open Sys2Proof

variable {verb : String} {lvl : State → Nat} {body : State → State × Answer} {ops : List Text} {s : State}

/-- A request in its turn and with standing is its body's answer, the line taken. -/
theorem runRequest_serves (h : serves s verb (lvl s) ops) :
    runRequest verb lvl body ops s = .next (answerWith (txt verb) (body (popLine s))) := by
  have hl : ¬ (s.mgmt.effective.getD 0).val < lvl s := Nat.not_lt.mpr h.2
  simp only [runRequest, h.1, if_true, judge]
  rw [if_neg (by simpa [popLine, modMgmt] using hl)]

/-- A request in its turn above the effective level is refused STANDING. -/
theorem runRequest_below (h : inTurn s (txt verb) ops = true) (hl : ¬ hasStanding s (lvl s)) :
    runRequest verb lvl body ops s =
      .next (replied (atOnce (raiseStanding (popLine s))) (txt verb) (.refused .standing) []) := by
  have hl : (s.mgmt.effective.getD 0).val < lvl s := Nat.not_le.mp hl
  simp only [runRequest, h, if_true, judge]
  rw [if_pos (by simpa [popLine, modMgmt] using hl)]
  rfl

/-- A request out of its turn is nothing. -/
theorem runRequest_out (h : inTurn s (txt verb) ops = false) : runRequest verb lvl body ops s = .next s := by
  simp [runRequest, h]

theorem answerWith_done (v : Text) (t : State) (r : List Text) : answerWith v (done t r) = replied t v .done r := rfl

theorem answerWith_kept (v : Text) (t : State) (r : List Text) : answerWith v (kept t r) = replied t v .kept r := rfl

theorem answerWith_refuse (v : Text) (t : State) (r : Reason) : answerWith v (refuse t r) = replied t v (.refused r) [] := rfl

/-- What a reading of the state sees after the request line has been taken. -/
@[simp] theorem popLine_lookup (k : Key) : lookup (popLine s) k = lookup s k := rfl

@[simp] theorem popLine_heldCount : heldCount (popLine s) = heldCount s := rfl

@[simp] theorem popLine_slotToAllocate : slotToAllocate (popLine s) = slotToAllocate s := rfl

@[simp] theorem popLine_entryOf (k : EventKind) : entryOf (popLine s) k = entryOf s k := rfl

@[simp] theorem popLine_tallyOf (p : Rec → Bool) : tallyOf p (popLine s) = tallyOf p s := rfl

@[simp] theorem popLine_reports : (popLine s).mgmt.reports = s.mgmt.reports := rfl

/-- A number below `n` reads as itself. -/
theorem below_val {n : Nat} (i : Fin n) : below? n i.val = some i := by simp [below?]

theorem below_none {n k : Nat} (h : n ≤ k) : below? n k = none := by simp [below?, Nat.not_lt.mpr h]

/-- A list of numbers in range reads as itself. -/
theorem forms_below {n : Nat} (l : List (Fin n)) : forms (below? n) (l.map Fin.val) = some l := by
  induction l with
  | nil => rfl
  | cons x xs ih => simp [forms, below_val, ih]

end Sys2Proof.Machine
end

