-- ==== Sys2Proof/Tests/Slice0.lean ====
section
/-!
SUPPORT. Tests/Slice0.lean: ill-formed commands that the checks refuse, the worked examples of spec/ on single operations and
steps, and for each statement with hypotheses a state and operands that meet them (`witness_<statement>`).
-/
namespace Sys2Proof.Tests

open Sys2Proof Sys2Proof.Machine

/- Each kernel evaluation waits for the theorems before it; one at a time keeps few threads waiting. -/
set_option Elab.async false

/-! ### Well-formedness: one ill-formed command for each check -/

theorem test_empty_operand_is_refused : (Instr.hold [[]]).wellFormed = false := by decide

theorem test_broken_operand_is_refused : (Instr.hold [txt "KP 4"]).wellFormed = false := by decide

theorem test_operand_with_NL_is_refused : (Instr.hold [[75, 80, 10]]).wellFormed = false := by decide

theorem test_overlong_line_is_refused : (Instr.hold [List.replicate 92 75]).wellFormed = false := by decide

theorem test_known_verb_is_not_unknown : (Instr.unknownRequest (txt "HOLD") []).wellFormed = false := by decide

theorem test_request_is_well_formed : (Instr.hold [txt "KP412"]).wellFormed = true := by decide

theorem test_no_word_spells_a_command : decodeTableWord 16 0 = none := by decide

/-! ### The manual's worked examples -/

/-- spec/02_the_copy_envelope.md, "Reading headers: examples": the agency of L7 is KP. -/
def kp : Agency := ⟨10, 15⟩

theorem test_header_take_and_slug :
    readCopyHeader (some kp) (txt "KP 412 U POL T3 BUDGET VOTE") =
      some ⟨⟨kp, 412⟩, .urgent, ⟨15, 14, 11⟩, 3, false, false, some (txt "BUDGET VOTE")⟩ := by decide +kernel

theorem test_header_last_take :
    readCopyHeader (some kp) (txt "KP 0412 U POL T3L") =
      some ⟨⟨kp, 412⟩, .urgent, ⟨15, 14, 11⟩, 3, true, false, none⟩ := by decide +kernel

theorem test_header_without_take :
    readCopyHeader (some kp) (txt "KP 9 R SPO LEAGUE RESULTS") =
      some ⟨⟨kp, 9⟩, .routine, ⟨18, 15, 14⟩, 0, true, false, some (txt "LEAGUE RESULTS")⟩ := by decide +kernel

theorem test_header_substitute :
    readCopyHeader (some kp) (txt "KP 77 F WAR T0S") =
      some ⟨⟨kp, 77⟩, .flash, ⟨22, 0, 17⟩, 0, false, true, none⟩ := by decide +kernel

theorem test_header_shape_begins_slug :
    readCopyHeader (some kp) (txt "KP 5 D FIN TL NOTES") =
      some ⟨⟨kp, 5⟩, .deferred, ⟨5, 8, 13⟩, 0, true, false, some (txt "TL NOTES")⟩ := by decide +kernel

theorem test_header_slug_is_clamped :
    (readCopyHeader (some kp) (txt "KP 5 R MKT T2 CLOSING PRICES ON ALL EXCHANGES")).bind CopyHeader.slug =
      some (txt "CLOSING PRICES ON ALL EX") := by decide +kernel

theorem test_header_faults :
    readCopyHeader (some kp) (txt "KP 77 B WAR T12") = none ∧ readCopyHeader (some kp) (txt "KP 77 B WA T1") = none ∧
      readCopyHeader (some kp) (txt "KR 77 B WAR T1") = none ∧
      readCopyHeader (some kp) (txt "KP 12345 R FIN T1") = none := by decide +kernel

/-- spec/06_precedence_and_the_delivery_queues.md, R108: the three records of its table. -/
theorem test_scores :
    score precedenceReset .routine 300 = 123 ∧ score precedenceReset .urgent 30 = 115 ∧
      score precedenceReset .deferred 4095 = 239 := by decide

/-- R108: a BULLETIN reaches 200 at age 384 and the cap at age 1,008. -/
theorem test_bulletin_climb :
    score precedenceReset .bulletin 383 = 199 ∧ score precedenceReset .bulletin 384 = 200 ∧
      score precedenceReset .bulletin 1007 = 238 ∧ score precedenceReset .bulletin 1008 = 239 := by decide

/-- R46: requirements LETTERS, FIGURES, LETTERS with the belief LETTERS become five codes. -/
theorem test_shift_insertion :
    insertShifts { Bank.emptied .five with lettersShift := some 31, figuresShift := some 27 } .letters
        [⟨1, .letters⟩, ⟨2, .figures⟩, ⟨3, .letters⟩] = ([1, 27, 2, 31, 3], .letters) := by decide

/-- R48: code 65 on a circuit of width 5 goes out as 1, and code 21 on one of width 7 as 21. -/
theorem test_mismatched_widths : atWidth .five 65 = 1 ∧ atWidth .seven 21 = 21 := by decide

/-- R129: at 300 baud, width 7 and stop 1, a code takes 30 ms, nine elements; at 50 baud, width 5 and stop 1.5, 150 ms, seven
and a half. -/
theorem test_character_times : charTimeHalves .seven .one = 18 ∧ charTimeHalves .five .oneHalf = 15 := by decide

/-- R2: the rate set {50, 75} is received at 75 baud. -/
theorem test_effective_rate : effectiveRate (setOf [0, 1]) = some 75 := by decide

/-- R94: "PO*" matches POL and POP, and not SPO. -/
theorem test_category_pattern :
    let e := { RouteEntry.unused with inUse := true, cat1 := some 15, cat2 := some 14 }
    entryMatches e ⟨15, 14, 11⟩ kp .deferred = true ∧ entryMatches e ⟨15, 14, 15⟩ kp .deferred = true ∧
      entryMatches e ⟨18, 15, 14⟩ kp .deferred = false := by decide

/-- R183: the alert of a STANDING_REFUSED from L12. -/
theorem test_alert_text :
    alertText .standingRefused { LatchEntry.clear with latched := true, detail := some (.line 12), count := 1 } =
      lineOf (txt "//A STANDING_REFUSED L12 1") ++ lineOf (txt "//E") := by decide

/-- R163: the short reply to a message of L7 dropped before its header was read. -/
theorem test_cut_reply : shortReply none 7 (txt "CUT") = lineOf (txt "//R L7 CUT") ++ lineOf (txt "//E") := by decide

/-- R161: a tag typed 007 is echoed as 007. -/
theorem test_tag_is_echoed : readManagementHeader (txt " 3 007 ") = some (3, some (txt "007")) := by decide

/-- R140: the gap notice of a record that misses T2 and T3. -/
theorem test_gap_notice : gapLine [2, 3] = lineOf (txt "== T2 T3 MISSING ==") := by decide

/-- R61: after reset the first slot allocated is S39. -/
theorem test_first_slot_is_S39 : slotToAllocate State.reset = some 39 := by decide +kernel

/-! ### Small states -/

/-- The part executing the one request line `t` of a message from L0 at level `v`. -/
def turn (v : Level) (t : String) : State :=
  { State.reset with mgmt := { Mgmt.reset with
    buffer := .executing, holder := some 0, effective := some v, lines := [txt t], reply := some ⟨[], 0⟩ } }

/-- R203: STATUS before the first WAKE after pin reset. -/
theorem test_status_after_reset :
    (bodyStatus [] State.reset).2.results =
      ["ON", "FULL", "C0-C15", "C0", "OFF", "NOT-RUN", "NOT-RUN", "L0", "-", "C0", "-"].map txt := by decide +kernel

/-! ### Witnesses: lines and framers -/

/-- A line of width 5 on a FIVE bank whose every letters entry is `e`. -/
def heard (e : InEntry) (f : Framer) (k : LineCounters) : State :=
  { State.reset with
    banks := put State.reset.banks 1 { Bank.emptied .five with inLetters := Vector.replicate 32 e }
    lines := put State.reset.lines 0 { Line.reset 0 with
      desc := { LineDesc.reset 0 with width := .five, bank := 1, silenceLimit := 6 }, framer := f, counters := k } }

/-- A framer in a state, with slashes held, a header and a take reference. -/
def framing (x : FramerState) (k : MessageKind) (held : Fin 3) (header : Text) (r : Option (SlotNo × TakeNo)) : Framer :=
  { state := x, kind := k, held := held, lineStart := false, header := header, takeRef := r }

/-- A line whose receiver stands so. -/
def received (r : Receiver) (silence : Option Nat) : State :=
  { State.reset with lines := put State.reset.lines 0 { Line.reset 0 with receiver := r, silence := silence } }

theorem witness_StepRunsTheFrontCommand :
    { State.reset with pending := [.secondAgeing] }.pending = .secondAgeing :: [] ∧ State.reset.pending = [] := by decide

theorem witness_ResetInputStopsAndResets : { State.reset with resetLow := true }.resetLow = true := by decide

theorem witness_TransitionsMoveTheReceiver :
    (received ⟨.start, none, none⟩ none).resetLow = false ∧
      (received ⟨.start, none, none⟩ none).lines[(0 : LineNo)].receiver.state = .start := by decide

theorem witness_FramingErrorIsCountedAndWatched :
    (heard .drop Framer.reset LineCounters.zero).resetLow = false ∧
      canArrive (heard .drop Framer.reset LineCounters.zero).lines[(0 : LineNo)] = true := by decide

theorem witness_FramingErrorIsCountedAndWatched_framers :
    (heard .drop (framing .hunt .copy 2 [] none) LineCounters.zero).lines[(0 : LineNo)].framer.state = .hunt ∧
      (heard .drop (framing .header .copy 0 (txt "KP") none) LineCounters.zero).lines[(0 : LineNo)].framer.header.length < 64 ∧
      (heard .drop (framing .discard .copy 2 [] none) LineCounters.zero).lines[(0 : LineNo)].framer.state = .discard := by
  decide

theorem witness_BreaksAndSilenceAreReported :
    (received ⟨.hold, some 15, none⟩ none).lines[(0 : LineNo)].receiver.state = .hold ∧
      (received ⟨.hold, some 15, none⟩ none).lines[(0 : LineNo)].receiver.breakWatch ≠ none ∧
      (received ⟨.brk, none, some 15⟩ none).lines[(0 : LineNo)].receiver.state = .brk ∧
      (received ⟨.brk, none, some 15⟩ none).lines[(0 : LineNo)].receiver.markingInterval ≠ none ∧
      (received Receiver.reset (some 60)).resetLow = false ∧
      (received Receiver.reset (some 60)).lines[(0 : LineNo)].silence ≠ none := by decide

theorem witness_InboundConversionFollowsTheBank :
    arrives (heard .drop Framer.reset LineCounters.zero) 0 0 none .letters ∧
      arrives (heard .shiftFigures Framer.reset LineCounters.zero) 0 0 none .figures := by decide

theorem witness_HuntFindsOpeningMarks_strays :
    arrives (heard (.char houseSlash) (framing .hunt .copy 1 [] none) LineCounters.zero) 0 0 (some houseSlash) .letters ∧
      arrives (heard (.char houseSlash) (framing .hunt .copy 2 [] none) LineCounters.zero) 0 0 (some houseSlash) .letters ∧
      arrives (heard (.char 69) (framing .hunt .copy 2 [] none) LineCounters.zero) 0 0 (some 69) .letters ∧
      (heard (.char 69) (framing .hunt .copy 2 [] none) LineCounters.zero).lines[(0 : LineNo)].framer.state = .hunt := by
  decide

/-- A line after two slashes while the message of `turn` is executed. -/
def busy : State :=
  { heard (.char (ch 'M')) (framing .hunt .copy 2 [] none) LineCounters.zero with mgmt := (turn 3 "STATUS").mgmt }

theorem witness_HuntFindsOpeningMarks :
    arrives (heard (.char (ch 'C')) (framing .hunt .copy 2 [] none) LineCounters.zero) 0 0 (some (ch 'C')) .letters ∧
      arrives (heard (.char (ch 'M')) (framing .hunt .copy 2 [] none) LineCounters.zero) 0 0 (some (ch 'M')) .letters ∧
      (heard (.char (ch 'M')) (framing .hunt .copy 2 [] none) LineCounters.zero).lines[(0 : LineNo)].framer.held = 2 ∧
      (heard (.char (ch 'M')) (framing .hunt .copy 2 [] none) LineCounters.zero).mgmt.buffer = .free ∧
      (heard (.char (ch 'M')) (framing .hunt .copy 2 [] none) LineCounters.zero).lines[(0 : LineNo)].framer.state = .hunt ∧
      arrives busy 0 0 (some (ch 'M')) .letters ∧ busy.mgmt.buffer ≠ .free ∧ busy.mgmt.reports.length < 8 := by decide

theorem witness_HeaderCharactersAreCollected :
    arrives (heard (.char 13) (framing .header .copy 0 [] none) LineCounters.zero) 0 0 (some 13) .letters ∧
      isFunction 13 = true ∧
      arrives (heard (.char 65) (framing .header .copy 0 (List.replicate 63 65) none) LineCounters.zero) 0 0 (some 65)
        .letters ∧ isFunction 65 = false ∧ (List.replicate 63 (65 : House)).length < 64 ∧
      arrives (heard (.char 65) (framing .header .copy 0 (List.replicate 64 65) none) LineCounters.zero) 0 0 (some 65)
        .letters ∧ 64 ≤ (List.replicate 64 (65 : House)).length ∧
      (heard (.char 65) (framing .header .copy 0 (List.replicate 64 65) none) LineCounters.zero).lines[(0 : LineNo)].framer =
        framing .header .copy 0 (List.replicate 64 65) none := by decide

/-- A copy header ready to be read. -/
def headed (e : InEntry) : State := heard e (framing .header .copy 0 (txt "KP 412 U POL T3 VOTE") none) LineCounters.zero

/-- The header that `headed` holds. -/
def headedAs : CopyHeader := ⟨⟨kp, 412⟩, .urgent, ⟨15, 14, 11⟩, 3, false, false, some (txt "VOTE")⟩

/-- `headed` with a story of the same key in S39 holding the take `t` and no other. -/
def headedHit (t : TakeNo) (x : TakeState) (last : Option TakeNo) : State :=
  { headed (.char houseNL) with slots := put State.reset.slots 39 { Slot.freed with
    state := .occupied, key := some ⟨kp, 412⟩, category := some ⟨15, 14, 11⟩, lastTake := last
    takes := put (Vector.replicate 12 none) t (some { firstTake 0 headedAs with state := x }) } }

theorem witness_CopyHeadersAreAnswered :
    arrives (headed (.char houseNL)) 0 0 (some houseNL) .letters ∧
      (headed (.char houseNL)).lines[(0 : LineNo)].framer.state = .header ∧
      (headed (.char houseNL)).lines[(0 : LineNo)].framer.kind = .copy ∧
      arrives (headedHit 0 .released none) 0 0 (some houseNL) .letters ∧
      readCopyHeader (headed (.char houseNL)).lines[(0 : LineNo)].desc.agency
        (headed (.char houseNL)).lines[(0 : LineNo)].framer.header = some headedAs ∧
      lookup (headed (.char houseNL)) headedAs.key = none ∧ slotToAllocate (headed (.char houseNL)) = some 39 ∧
      lookup (headedHit 0 .released none) headedAs.key = some 39 ∧
      takeOrderFault (headedHit 0 .released none).slots[(39 : SlotNo)] headedAs = false ∧
      takeAt (headedHit 0 .released none) 39 3 = none ∧
      (presentTakes (headedHit 0 .released none).slots[(39 : SlotNo)]).isEmpty = false := by decide +kernel

theorem witness_CopyHeadersAreAnswered_turnedAway :
    arrives (headedHit 3 .filling none) 0 0 (some houseNL) .letters ∧
    lookup { headed (.char houseNL) with
        slots := Vector.replicate 40 { Slot.freed with state := .occupied, held := true } } headedAs.key = none ∧
      slotToAllocate { headed (.char houseNL) with
        slots := Vector.replicate 40 { Slot.freed with state := .occupied, held := true } } = none ∧
      lookup (headedHit 0 .released (some 2)) headedAs.key = some 39 ∧
      takeOrderFault (headedHit 0 .released (some 2)).slots[(39 : SlotNo)] headedAs = true ∧
      lookup (headedHit 3 .filling none) headedAs.key = some 39 ∧
      takeOrderFault (headedHit 3 .filling none).slots[(39 : SlotNo)] headedAs = false ∧
      (takeAt (headedHit 3 .filling none) 39 3).isSome = true := by decide +kernel

/-- A take T0 of S39 being filled with `n` characters, `e` arriving for it, the framer with `held` slashes. -/
def filling (e : InEntry) (held : Fin 3) (n : Nat) (used : Bool) (t : TakeNo) : State :=
  { heard e (framing .copyBody .copy held [] (some (39, t))) LineCounters.zero with
    slots := put State.reset.slots 39 { Slot.freed with
      state := .occupied, key := some ⟨kp, 412⟩, blockMap := Vector.replicate 64 used
      takes := put (Vector.replicate 12 none) t (some { firstTake 0 headedAs with
        current := ⟨[], List.replicate n 65, false⟩ }) } }

theorem witness_BodyCharactersAreWritten :
    arrives (filling (.char 65) 0 63 true 0) 0 0 (some 65) .letters ∧
      (filling (.char 65) 0 63 true 0).lines[(0 : LineNo)].framer = framing .copyBody .copy 0 [] (some (39, 0)) ∧
      ¬((65 : House) = houseSlash ∧ (filling (.char 65) 0 63 true 0).lines[(0 : LineNo)].framer.lineStart = true) ∧
      ((takeAt (filling (.char 65) 0 63 true 0) 39 0).map Take.replacement) = some none ∧
      ((takeAt (filling (.char 65) 0 63 true 0) 39 0).map fun k => (k.state, k.current.text.length % 64)) =
        some (.filling, 63) ∧
      ((takeAt (filling (.char 65) 0 64 true 0) 39 0).map fun k => (k.state, k.current.text.length % 64)) =
        some (.filling, 0) ∧
      lowestFree (filling (.char 65) 0 0 false 0).slots[(39 : SlotNo)].blockMap = some 0 ∧
      lowestFree (filling (.char 65) 0 64 true 0).slots[(39 : SlotNo)].blockMap = none := by decide +kernel

theorem witness_BodyCharactersAreWritten_slashes :
    arrives (filling (.char houseSlash) 1 5 false 0) 0 0 (some houseSlash) .letters ∧
      (filling (.char houseSlash) 1 5 false 0).lines[(0 : LineNo)].framer.held = 1 ∧
      { framing .discard .copy 0 [] none with lineStart := true }.lineStart = true ∧
      IsText (framing .copyBody .copy 0 [] (some (39, 0))) 65 ∧ IsText (framing .copyBody .copy 2 [] (some (39, 0))) houseSlash ∧
      (passedText (framing .copyBody .copy 2 [] (some (39, 0))) 65).length = 3 ∧ 64 < 62 + 3 ∧ 61 + 3 ≤ 64 ∧
      IsText (framing .discard .copy 1 [] none) 65 ∧
      (takeAt (modTake (filling (.char 65) 1 5 false 0) 39 0 fun k => { k with state := .cutFilling }) 39 0).map Take.state =
        some .cutFilling := by
  unfold IsText
  decide +kernel

/-- R27, R69, R70: "//X" at a line start passes on "//X", which runs over the end of a block; with none free the take is cut. -/
theorem test_held_slashes_are_passed_on :
    (match step { filling (.char 88) 2 62 false 0 with pending := [.characterArrives 0 0 true] },
        step { filling (.char 88) 2 62 true 0 with pending := [.characterArrives 0 0 true] } with
    | .next t, .next u => [t, u].map fun w => (takeAt w 39 0).map fun k =>
        (k.state, k.current.text.drop 62, k.current.blocks)
    | _, _ => []) = [some (.filling, txt "//X", [0]), some (.cutFilling, txt "//", [])] := by decide +kernel

theorem witness_ClosingMarksStoreTakes :
    arrives (filling (.char (ch 'E')) 2 5 false 0) 0 0 (some (ch 'E')) .letters ∧
      arrives (filling (.char (ch 'E')) 2 5 false 1) 0 0 (some (ch 'E')) .letters ∧
      (filling (.char (ch 'E')) 2 5 false 0).lines[(0 : LineNo)].framer = framing .copyBody .copy 2 [] (some (39, 0)) ∧
      ((takeAt (filling (.char (ch 'E')) 2 5 false 1) 39 1).map Take.replacement) = some none ∧
      (filling (.char (ch 'E')) 2 5 false 0).slots[(39 : SlotNo)].passed[(0 : TakeNo)] = false ∧
      (∀ j : TakeNo, j < 0 → cleared (filling (.char (ch 'E')) 2 5 false 0).slots[(39 : SlotNo)] j = true) ∧
      (∃ j : TakeNo, j < 1 ∧ cleared (filling (.char (ch 'E')) 2 5 false 1).slots[(39 : SlotNo)] j = false) ∧
      (filling (.char (ch 'E')) 2 5 false 1).takeWait ≠ 0 := by decide +kernel

/-- `filling` ready for its closing mark, the story in category POL, the number of the take passed or not. -/
def closing (late : Bool) (t : TakeNo) : State :=
  modSlot (filling (.char (ch 'E')) 2 5 false t) 39 fun x =>
    { x with category := some ⟨15, 14, 11⟩, passed := if late then setOf [t] else noneOf 12 }

theorem witness_ClosingMarksStoreTakes_records :
    (closing true 1).slots[(39 : SlotNo)].passed[(1 : TakeNo)] = true ∧
      (closing false 0).slots[(39 : SlotNo)].passed[(0 : TakeNo)] = false ∧ (closing true 1).meanwhile = [] ∧
      (∀ c : CircuitNo, (closing true 1).circuits[c].sender.carried = .nothing) ∧
      (∀ j : TakeNo, isWaiting (closing true 1).slots[(39 : SlotNo)] j = false) ∧
      (closing true 1).slots[(39 : SlotNo)].key = some ⟨kp, 412⟩ ∧
      (closing true 1).slots[(39 : SlotNo)].category = some ⟨15, 14, 11⟩ ∧
      routedSet (closing true 1) ⟨15, 14, 11⟩ kp .urgent = [0] ∧ 1 ≤ (closing true 1).freeCount := by decide +kernel

/-- A line in a body with two slashes held. -/
def marked (e : InEntry) (x : FramerState) (r : Option (SlotNo × TakeNo)) (m : Mgmt) : State :=
  { filling e 2 5 false 0 with
    lines := (heard e (framing x .management 2 [] r) LineCounters.zero).lines
    mgmt := m }

/-- A message of L0 being collected. -/
def collecting (tooLong : Bool) (lines : List Text) (line : Text) : Mgmt :=
  { Mgmt.reset with
    buffer := .collecting, holder := some 0, level := some 2, tag := some (txt "007"), lines := lines, collecting := line
    tooLong := tooLong }

/-- L0 at an opening mark in its management body, and L1 at one in HUNT, which comes in between. -/
def contested : State :=
  let s := marked (.char (ch 'M')) .manageBody none (collecting false [] [])
  { s with
    lines := put s.lines 1 { s.lines[(0 : LineNo)] with framer := framing .hunt .copy 2 [] none }
    meanwhile := [[.characterArrives 1 0 true]] }

theorem witness_OpeningMarksInBodiesEndMessages :
    arrives (marked (.char (ch 'C')) .discard none Mgmt.reset) 0 0 (some (ch 'C')) .letters ∧
      (marked (.char (ch 'M')) .discard none Mgmt.reset).mgmt.buffer = .free ∧
      arrives (marked (.char (ch 'C')) .copyBody (some (39, 0)) Mgmt.reset) 0 0 (some (ch 'C')) .letters ∧
      ((takeAt (marked (.char (ch 'C')) .copyBody (some (39, 0)) Mgmt.reset) 39 0).map Take.replacement) = some none ∧
      arrives contested 0 0 (some (ch 'M')) .letters ∧ arrives contested 1 0 (some (ch 'M')) .letters ∧
      contested.lines[(0 : LineNo)].framer.state = .manageBody ∧ contested.lines[(0 : LineNo)].framer.held = 2 ∧
      contested.mgmt.holder = some 0 ∧ contested.mgmt.reports.length < 7 ∧
      contested.lines[(1 : LineNo)].framer.state = .hunt ∧ contested.lines[(1 : LineNo)].framer.held = 2 ∧
      { contested with meanwhile := [] }.meanwhile = [] := by decide +kernel

/-- R31: the other line holds the buffer, and the framer that dropped its message is busy and passes the next one over. -/
theorem test_contested_buffer :
    (match step { contested with pending := [.characterArrives 0 0 true] } with
    | .next t => (t.mgmt.buffer, t.mgmt.holder, t.lines[(0 : LineNo)].framer.state, t.lines[(1 : LineNo)].framer.state,
        t.mgmt.reports)
    | _ => (.free, none, .hunt, .hunt, [])) =
      (.opened, some 1, .discard, .header, [shortReplyText (some (txt "007")) 0 "CUT", shortReplyText none 0 "BUSY"]) := by
  decide +kernel

/-- T1 of S39 stored, or a substitute of it being filled, with C1 carrying it and an older superseded version on its chain. -/
def substituting (e : InEntry) (held : Fin 3) (x : TakeState) (again : Bool) (n : Nat) : State :=
  let f : RecRef := { slot := 39, take := 1, version := .current }
  let r : Rec := { ref := some f, cls := .flash, kind := .new, gap := [], age := 0, resume := none, composed := none }
  { modSlot (filling e held 5 false 1) 39 fun y =>
    { y with
      category := some ⟨15, 14, 11⟩
      pendingCount := 2
      takes := put y.takes 1 (some { firstTake 0 headedAs with
        state := x, releasedFlag := again, current := ⟨[], [], false⟩
        replacement := if x = .filling then some (⟨[], List.replicate n 66, false⟩, .bulletin) else none
        superseded := some (⟨[], [], false⟩, 1) }) } with
    freeCount := 190
    circuits := modAt State.reset.circuits 1 fun y =>
      { y with sender := { y.sender with
        state := .carrying, motor := true, carried := .record r
        chain := [{ r with cls := .routine, ref := some { f with version := .superseded } }] } } }

/-- A header of a substitute of T1. -/
def substituteHeader : State :=
  { substituting (.char houseNL) 0 .released true 0 with
    lines := (heard (.char houseNL) (framing .header .copy 0 (txt "KP 412 B POL T1S") none) LineCounters.zero).lines }

theorem witness_SubstitutesReplaceTheText :
    arrives substituteHeader 0 0 (some houseNL) .letters ∧
      (readCopyHeader substituteHeader.lines[(0 : LineNo)].desc.agency
        substituteHeader.lines[(0 : LineNo)].framer.header).map (fun d => (d.key, d.take, d.sub)) =
          some (⟨kp, 412⟩, 1, true) ∧
      lookup substituteHeader ⟨kp, 412⟩ = some 39 ∧
      (takeAt substituteHeader 39 1).map Take.state = some .released ∧
      arrives (substituting (.char 65) 0 .filling true 63) 0 0 (some 65) .letters ∧
      IsText (framing .copyBody .copy 0 [] (some (39, 1))) 65 ∧
      (substituting (.char 65) 0 .filling true 63).lines[(0 : LineNo)].framer = framing .copyBody .copy 0 [] (some (39, 1)) ∧
      (takeAt (substituting (.char 65) 0 .filling true 63) 39 1).map (fun k => (k.state, k.replacement.isSome)) =
        some (.filling, true) ∧
      lowestFree (substituting (.char 65) 0 .filling true 64).slots[(39 : SlotNo)].blockMap = some 0 ∧
      arrives (substituting (.char (ch 'E')) 2 .filling true 5) 0 0 (some (ch 'E')) .letters ∧
      (substituting (.char (ch 'E')) 2 .filling true 5).lines[(0 : LineNo)].framer =
        framing .copyBody .copy 2 [] (some (39, 1)) ∧
      routedSet (substituting (.char (ch 'E')) 2 .filling true 5) ⟨15, 14, 11⟩ kp .bulletin = [0] ∧
      (takeAt (substituting (.char (ch 'E')) 2 .filling false 5) 39 1).map Take.releasedFlag = some false ∧
      cleared (substituting (.char (ch 'E')) 2 .filling false 5).slots[(39 : SlotNo)] 0 = false := by
  unfold IsText
  decide +kernel

theorem substituting_idle : IdleCarriesNothing (substituting (.char (ch 'E')) 2 .filling true 5) := by
  unfold IdleCarriesNothing; decide +kernel

/-- R78, R79: the older reader goes back to the pool, the current one reads the superseded version, and C0 has a SUB record. -/
theorem test_substitute_stored :
    (match step { substituting (.char (ch 'E')) 2 .filling true 5 with pending := [.characterArrives 0 0 true] } with
    | .next t => ((takeAt t 39 1).map fun k => (k.superseded.map Prod.snd, k.subCount), t.freeCount,
        t.circuits[(0 : CircuitNo)].queue.map Rec.kind, t.circuits[(1 : CircuitNo)].sender.chain.length)
    | _ => (none, 0, [], 0)) = (some (some 1, 1), 190, [.sub], 0) := by decide +kernel

/-- A line of a management message that has character `e` next. -/
def managed (e : InEntry) (held : Fin 3) (m : Mgmt) (clr : Level) : State :=
  { heard e (framing .manageBody .management held [] none) LineCounters.zero with
    lines := modAt (heard e (framing .manageBody .management held [] none) LineCounters.zero).lines 0 fun x =>
      { x with desc := { x.desc with clearance := clr } }
    mgmt := m }

theorem witness_ManagementMessagesAreReadAndClosed :
    arrives (heard (.char houseNL) (framing .header .management 0 (txt " 3 007") none) LineCounters.zero) 0 0 (some houseNL)
        .letters ∧
      readManagementHeader (txt " 3 007") = some (3, some (txt "007")) ∧ readManagementHeader (txt "4") = none ∧
      arrives (managed (.char 65) 0 (collecting false [] (List.replicate 95 65)) 1) 0 0 (some 65) .letters ∧
      isFunction 65 = false ∧ isFunction 7 = true ∧ (List.replicate 95 (65 : House)).length < 96 ∧
      96 ≤ (List.replicate 96 (65 : House)).length ∧
      arrives (managed (.char houseNL) 0 (collecting false [] [65]) 1) 0 0 (some houseNL) .letters ∧
      (∃ x ∈ ([65] : Text), x ≠ houseSpace) ∧ (∀ x ∈ ([32] : Text), x = houseSpace) ∧
      arrives (managed (.char (ch 'E')) 2 (collecting true [] []) 1) 0 0 (some (ch 'E')) .letters ∧
      (managed (.char (ch 'E')) 2 (collecting true [] []) 1).lines[(0 : LineNo)].framer.held = 2 ∧
      (managed (.char (ch 'E')) 2 (collecting true [] []) 1).mgmt.holder = some 0 ∧
      (managed (.char (ch 'E')) 2 (collecting true [] []) 1).mgmt.tooLong = true ∧
      (managed (.char (ch 'E')) 2 (collecting false [] []) 0).lines[(0 : LineNo)].desc.clearance = 0 ∧
      (managed (.char (ch 'E')) 2 (collecting false [] []) 1).lines[(0 : LineNo)].desc.clearance ≠ 0 ∧
      (managed (.char (ch 'E')) 2 (collecting false [] []) 1).mgmt.level = some 2 := by decide +kernel

theorem witness_BreaksAndSilenceAreReported_ends :
    let s := fun e held => (filling e held 5 false 0)
    let held := fun (x : State) => modLine x 0 fun y => { y with receiver := ⟨.hold, some 15, none⟩ }
    (held (s .drop 2)).lines[(0 : LineNo)].receiver = ⟨.hold, some 15, none⟩ ∧
      (held (s .drop 2)).lines[(0 : LineNo)].framer = framing .copyBody .copy 2 [] (some (39, 0)) ∧
      (takeAt (held (s .drop 2)) 39 0).map Take.state = some .filling ∧
      (held (managed .drop 0 (collecting false [] []) 1)).lines[(0 : LineNo)].framer.state = .manageBody ∧
      (held (managed .drop 0 (collecting false [] []) 1)).mgmt.holder = some 0 ∧
      (held (managed .drop 0 (collecting false [] []) 1)).latch.alertMode = false ∧
      (held (managed .drop 0 (collecting false [] []) 1)).mgmt.reports.length < 8 := by decide +kernel

/-- R33: a break ends the take cut, the slashes held written first. -/
theorem test_break_cuts_the_take :
    (match step { modLine (filling .drop 2 5 false 0) 0 fun y => { y with receiver := ⟨.hold, some 15, none⟩ } with
        pending := [.breakWatchExpires 0] } with
    | .next t => (takeAt t 39 0).map fun k => (k.state, k.current.cut, k.current.text.drop 5)
    | _ => none) = some (.released, true, txt "//") := by decide +kernel

theorem witness_ManagementMessagesAreReadAndClosed_text :
    IsText (framing .manageBody .management 0 [] none) 65 ∧ IsText (framing .manageBody .management 2 [] none) houseNL ∧
      (collecting false [] (List.replicate 94 65)).collecting.length + 2 ≤ 96 ∧
      (collecting false [] (List.replicate 96 65)).collecting.length ≤ 96 ∧
      96 < (collecting false [] (List.replicate 95 65)).collecting.length + 2 := by
  unfold IsText
  decide +kernel

/-- R165: at a clearance of 1 a message of header level 2 is executed at level 1. -/
theorem test_effective_level :
    (match step { managed (.char (ch 'E')) 2 (collecting false [] []) 1 with pending := [.characterArrives 0 0 true] } with
    | .next t => (t.mgmt.buffer, t.mgmt.effective)
    | _ => (.free, none)) = (.executing, some 1) := by decide +kernel

/-! ### Witnesses: requests -/

/-- Tokens as typed. -/
def typed (l : List String) : List Text := l.map txt

theorem witness_RequestsRunInTheirTurn :
    inTurn State.reset (txt "STATUS") [] = false ∧ inTurn (turn 1 "HELP L0") (txt "HELP") (typed ["L0"]) = true ∧
      txt "HELP" ∉ catalogue := by decide

theorem witness_RequestsAboveTheLevelAreRefused :
    (Instr.quiet []).request? = some (txt "QUIET", []) ∧ requiredLevel (.quiet []) (turn 1 "QUIET") = some 2 ∧
      inTurn (turn 1 "QUIET") (txt "QUIET") [] = true ∧ ¬ hasStanding (turn 1 "QUIET") 2 ∧
      (turn 1 "QUIET").mgmt.holder = some 0 := by decide

theorem witness_RefusedAndKeptRequestsChangeNothing :
    (Instr.quiet []).request? = some (txt "QUIET", []) ∧ requiredLevel (.quiet []) (turn 2 "QUIET") = some 2 ∧
      inTurn (turn 2 "QUIET") (txt "QUIET") [] = true ∧ hasStanding (turn 2 "QUIET") 2 := by decide

theorem witness_LineSetsTheLine :
    serves (turn 3 "LINE L23 300,600 7 1.5 B0 KP 3 300") "LINE" 3 (typed ["L23", "300,600", "7", "1.5", "B0", "KP", "3", "300"]) ∧
      lineForm (txt "L23") = some (23 : LineNo).val ∧ lineForm (txt "L24") = some 24 ∧ lineForm (txt "23") = none ∧
      rateSetForm (txt "300,600") = some (setOf [6, 7]) ∧ rateSetForm (txt "301") = none ∧
      widthForm (txt "7") = some .seven ∧ stopForm (txt "1.5") = some .oneHalf ∧ bankInRange (txt "B0") = some 0 ∧
      agencyForm (txt "KP") = some (some kp) ∧ number? (txt "3") = some (3 : Level).val ∧ number? (txt "4") = some 4 ∧
      number? (txt "300") = some 300 ∧
      kindMatches .seven (turn 3 "LINE").banks[(0 : BankNo)].kind = true ∧
      kindMatches .five (turn 3 "LINE").banks[(0 : BankNo)].kind = false ∧
      (turn 3 "LINE").lines[(23 : LineNo)].framer.state = .hunt := by decide

/-- LINE naming L0, whose framer fills T0 of S39 or holds a management message. -/
def lineInMessage (x : FramerState) : State :=
  { marked .drop x (some (39, 0)) { (turn 3 "LINE L0 300 7 1 B0 ** 3 0").mgmt with tag := none } with
    banks := State.reset.banks }

theorem witness_LineSetsTheLine_messages :
    serves (turn 3 "LINE L0") "LINE" 3 (typed ["L0"]) ∧ (typed ["L0"]).length ≠ 8 ∧
      serves (lineInMessage .copyBody) "LINE" 3 (typed ["L0", "300", "7", "1", "B0", "**", "3", "0"]) ∧
      (lineInMessage .copyBody).lines[(0 : LineNo)].framer.state = .copyBody ∧
      (lineInMessage .copyBody).lines[(0 : LineNo)].framer.takeRef = some (39, 0) ∧
      ((takeAt (lineInMessage .copyBody) 39 0).map fun k => (k.state, k.replacement)) = some (.filling, none) ∧
      (lineInMessage .manageBody).lines[(0 : LineNo)].framer.state = .manageBody ∧
      (lineInMessage .manageBody).mgmt.holder = some 0 ∧ (lineInMessage .manageBody).mgmt.reports.length < 8 := by
  decide +kernel

theorem witness_BankEntriesAndLineBanks_line :
    serves (turn 2 "LINEBANK L23 B3") "LINEBANK" 2 (typed ["L23", "B3"]) ∧ lineForm (txt "L23") = some (23 : LineNo).val ∧
      lineForm (txt "L24") = some 24 ∧ bankForm (txt "B3") = some (3 : BankNo).val ∧ bankForm (txt "B4") = some 4 ∧
      bankForm (txt "4") = none ∧ kindMatches .seven (turn 2 "LINEBANK").banks[(3 : BankNo)].kind = false ∧
      kindMatches (turn 2 "LINEBANK").lines[(23 : LineNo)].desc.width (turn 2 "LINEBANK").banks[(0 : BankNo)].kind = true := by
  decide

theorem witness_BanksAreEmptiedAndCoded :
    bankForm (txt "B3") = some (3 : BankNo).val ∧
      serves (turn 3 "BANKKIND B3 FIVE") "BANKKIND" 3 (typed ["B3", "FIVE"]) ∧ kindForm (txt "FIVE") = some .five ∧
      kindForm (txt "SIX") = none ∧ serves (turn 3 "BANKSUB B3 31L") "BANKSUB" 3 (typed ["B3", "31L"]) ∧
      outCodeForm (turn 3 "BANKSUB").banks[(3 : BankNo)].kind (txt "31L") = some ((31 : LineCode).val, .letters) ∧
      outCodeForm (turn 3 "BANKSUB").banks[(3 : BankNo)].kind (txt "32L") = some (32, .letters) ∧
      outCodeForm (turn 3 "BANKSUB").banks[(3 : BankNo)].kind (txt "31") = none ∧
      codeLimit (turn 3 "BANKSUB").banks[(3 : BankNo)].kind = 31 ∧
      serves (turn 3 "BANKSHIFT B3 31 27") "BANKSHIFT" 3 (typed ["B3", "31", "27"]) ∧
      (turn 3 "BANKSHIFT").banks[(3 : BankNo)].kind = .five ∧ number? (txt "31") = some (31 : LineCode).val ∧
      number? (txt "27") = some (27 : LineCode).val ∧ number? (txt "32") = some 32 ∧ number? (txt "X") = none := by decide

theorem witness_BankEntriesAndLineBanks :
    bankForm (txt "B3") = some (3 : BankNo).val ∧ number? (txt "30") = some 30 ∧
      serves (turn 3 "BANKIN B3 LETTERS 30 65 DROP") "BANKIN" 3 (typed ["B3", "LETTERS", "30", "65", "DROP"]) ∧
      serves (turn 3 "BANKIN B3 FIGURES 30 65 DROP") "BANKIN" 3 (typed ["B3", "FIGURES", "30", "65", "DROP"]) ∧
      halfForm (txt "LETTERS") = some .letters ∧ halfForm (txt "FIGURES") = some .figures ∧
      forms (fun t => (inEntryForm .five t).bind entryInRange) (typed ["65", "DROP"]) = some [.char 65, .drop] ∧
      30 + (typed ["65", "DROP"]).length - 1 ≤ 31 ∧ bankForm (txt "B0") = some (0 : BankNo).val ∧
      serves (turn 3 "BANKIN B0 127 65") "BANKIN" 3 (typed ["B0", "127", "65"]) ∧
      forms (fun t => (inEntryForm .seven t).bind entryInRange) (typed ["65"]) = some [.char 65] ∧
      serves (turn 3 "BANKOUT B3 126 1L+31F -") "BANKOUT" 3 (typed ["B3", "126", "1L+31F", "-"]) ∧
      forms (fun t => (outEntryForm (turn 3 "BANKOUT").banks[(3 : BankNo)].kind t).bind
          (forms (codeInRange (turn 3 "BANKOUT").banks[(3 : BankNo)].kind))) (typed ["1L+31F", "-"]) =
        some [[⟨1, .letters⟩, ⟨31, .figures⟩], []] := by decide

/-- `turn` with route entry E63 in use or not, its edit level 3. -/
def routing (v : Level) (t : String) (used : Bool) : State :=
  { turn v t with routes := put State.reset.routes 63 { RouteEntry.unused with inUse := used, editLevel := 3 } }

theorem witness_RouteEntriesAreWritten :
    entryNamed (txt "E63") = some 63 ∧ patternForm (txt "P*L") = some (some 15, none, some 11) ∧
      agencyForm (txt "**") = some none ∧ classForm (txt "D") = some .deferred ∧
      listForm circuitForm (txt "C15,C0,C15") = some (([15, 0, 15] : List CircuitNo).map Fin.val) ∧
      listForm circuitForm (txt "-") = some (([] : List CircuitNo).map Fin.val) ∧
      stopFlagForm (txt "STOP") = some true ∧ oneDigit (txt "3") = some (3 : Level).val ∧
      serves (routing 3 "ROUTE E63 P*L ** D C15,C0,C15 STOP 3" true) "ROUTE"
        (max (max 2 (routing 3 "" true).routes[(63 : EntryNo)].editLevel.val) 3)
        (typed ["E63", "P*L", "**", "D", "C15,C0,C15", "STOP", "3"]) ∧
      serves (routing 3 "ROUTEOFF E63" true) "ROUTEOFF"
        (max 2 (routing 3 "" true).routes[(63 : EntryNo)].editLevel.val) (typed ["E63"]) := by decide

theorem witness_CircuitSetsAreChangedAndRead :
    entryNamed (txt "E63") = some 63 ∧ circuitForm (txt "C15") = some (15 : CircuitNo).val ∧
      serves (routing 3 "MARK E63 C15" true) "MARK" (max 2 (routing 3 "" true).routes[(63 : EntryNo)].editLevel.val)
        (typed ["E63", "C15"]) ∧
      serves (routing 3 "UNMARK E63 C15" true) "UNMARK" (max 2 (routing 3 "" true).routes[(63 : EntryNo)].editLevel.val)
        (typed ["E63", "C15"]) ∧
      serves (routing 3 "FLIP E63 C15" true) "FLIP" (max 2 (routing 3 "" true).routes[(63 : EntryNo)].editLevel.val)
        (typed ["E63", "C15"]) ∧
      serves (routing 1 "TEST E63 C15" true) "TEST" 1 (typed ["E63", "C15"]) ∧
      (routing 3 "" true).routes[(63 : EntryNo)].inUse = true ∧
      (routing 3 "" false).routes[(63 : EntryNo)].inUse = false := by decide

theorem witness_CircuitSetsAreChangedAndRead_whole :
    serves (turn 2 "DEFAULTS C15,C3") "DEFAULTS" 2 (typed ["C15,C3"]) ∧
      serves (turn 2 "FLASHSET -") "FLASHSET" 2 (typed ["-"]) ∧
      listForm circuitForm (txt "C15,C3") = some (([15, 3] : List CircuitNo).map Fin.val) ∧
      listForm circuitForm (txt "C16") = some [16] ∧ listForm circuitForm (txt "16") = none := by decide

/-- The part awake, with the queue of C1 holding `q`, its chain `ch` and what it carries, the report circuit C0. -/
def queued (q ch : List Rec) (x : Carried) : State :=
  { State.reset with
    mode := { Mode.reset with quiet := false }
    circuits := put State.reset.circuits 1 { Circuit.reset 1 with
      desc := { CircuitDesc.reset 1 with rates := onlyRate300, bulletinBreak := true }
      queue := q
      sender := { Sender.reset with state := .carrying, motor := true, chain := ch, carried := x } } }

/-- A record of class `c` naming T0 of S39. -/
def recOf (c : Machine.Class) : Rec :=
  { ref := some ⟨39, 0, .current⟩, cls := c, kind := .new, gap := [], age := 0, resume := none, composed := none }

theorem witness_ClassesBreakInAndScore :
    basesInRange precedenceReset = true ∧ basesDecrease precedenceReset = true := by decide

theorem witness_SelectionTakesTheFirstStep :
    choose (queued [recOf .routine, recOf .flash] [recOf .urgent] .nothing) 1 = .start 1 ∧
      choose (queued [recOf .routine] [recOf .urgent] .nothing) 1 = .resume (recOf .urgent) ∧
      choose (queued [recOf .routine, recOf .urgent] [] .nothing) 1 = .start 1 ∧
      choose (queued [] [] .nothing) 1 = .nothing ∧
      choose { State.reset with mgmt := { Mgmt.reset with reports := [txt "//E"] } } 0 = .report := by decide

/-- An empty pool, a ROUTINE and two DEFERRED records queued on C1. -/
def drained : State :=
  { queued [recOf .routine, recOf .deferred, recOf .deferred] [] (.record (recOf .urgent)) with freeCount := 0 }

theorem witness_RecordsAreMadeForEachCircuit_displaced :
    IsWorst (fun x => decide (x.cls = .routine ∨ x.cls = .deferred)) (scoreOf drained)
        [recOf .routine, recOf .deferred, recOf .deferred] 2 ∧
      drained.meanwhile = [] ∧ drained.freeCount = 0 ∧ (recOf .flash).cls = .flash ∧
      drained.circuits[(1 : CircuitNo)].queue = [recOf .routine, recOf .deferred, recOf .deferred] ∧
      (∀ c : CircuitNo, drained.circuits[c].sender.state ≠ .carrying → drained.circuits[c].sender.carried = .nothing) := by
  refine ⟨⟨recOf .deferred, rfl, by decide, ?_, ?_⟩, by decide +kernel⟩
  · intro j x hj _
    match j with
    | 0 => simp at hj; subst hj; decide
    | 1 => simp at hj; subst hj; decide
    | 2 => simp at hj; subst hj; decide
    | k + 3 => simp at hj
  · intro j x hlt hj
    match j with
    | 0 => exact absurd hlt (by decide)
    | 1 => exact absurd hlt (by decide)
    | 2 => exact absurd hlt (by decide)
    | k + 3 => simp at hj

/-- An empty pool, C1 at the end of a delivery, which finishes between two turns. -/
def returning : State :=
  { queued [] [] .nothing with
    freeCount := 0
    meanwhile := [[], [.characterSent 1]]
    circuits := modAt State.reset.circuits 1 fun x =>
      { x with sender := { x.sender with
        state := .carrying, motor := true, carried := .record (recOf .urgent), phase := .trailer
        sending := some { char := houseNL, phase := .trailer, codes := [10] } } } }

theorem witness_RecordsAreMadeForEachCircuit_returned :
    returning.meanwhile = [[], [.characterSent 1]] ∧ returning.freeCount = 0 ∧ returning.latch.alertMode = false ∧
      returning.circuits[(1 : CircuitNo)].sender.sending = some ⟨houseNL, .trailer, [10]⟩ ∧
      returning.circuits[(1 : CircuitNo)].sender.carried = .record (recOf .urgent) ∧
      (recOf .urgent).ref = some ⟨39, 0, .current⟩ ∧ returning.circuits[(1 : CircuitNo)].sender.state = .carrying ∧
      returning.circuits[(1 : CircuitNo)].sender.phase = .trailer ∧ returning.circuits[(1 : CircuitNo)].sender.tail = [] ∧
      (∀ c : CircuitNo, returning.circuits[c].sender.state ≠ .carrying →
        returning.circuits[c].sender.carried = .nothing) := by decide +kernel

/-- R117: the turn of C0 is missed and the turn of C2 finds the record that C1 returned. -/
theorem test_return_between_turns :
    (fun u : State => (u.circuits[(0 : CircuitNo)].sender.missed, u.circuits[(2 : CircuitNo)].queue.length, u.freeCount))
      (makeRecords returning [0, 2] 39 (recOf .bulletin)) = (1, 1, 0) := by decide +kernel

theorem witness_RecordsAreMadeForEachCircuit :
    IdleCarriesNothing State.reset ∧ State.reset.meanwhile = [] ∧ ([0, 15] : List CircuitNo).Nodup ∧ ([0, 15] : List CircuitNo).length ≤
      State.reset.freeCount ∧ { State.reset with freeCount := 0 }.freeCount = 0 ∧ (recOf .bulletin).cls ≠ .flash := by
  refine ⟨?_, by decide⟩
  unfold IdleCarriesNothing
  decide

theorem witness_PrecedenceAndTakeWaitAreSet :
    serves (turn 3 "PRECEDENCE") "PRECEDENCE" 3 [] ∧
      serves (turn 3 "PRECEDENCE 255 0 254 1 4 2 1 16 0 2") "PRECEDENCE" 3
        (typed ["255", "0", "254", "1", "4", "2", "1", "16", "0", "2"]) ∧
      (typed ["255", "0", "254", "1", "4", "2", "1", "16", "0", "2"]).map number? =
        [some 255, some 0, some 254, some 1, some 4, some 2, some 1, some 16, some 0, some 2] ∧
      serves (turn 3 "TAKEWAIT 256") "TAKEWAIT" 3 (typed ["256"]) ∧ number? (txt "256") = some 256 ∧
      number? (txt "255S") = none := by decide

/-- `turn` with the story KP412 in S39, one take RELEASED. -/
def stored (v : Level) (t : String) : State :=
  { turn v t with slots := put State.reset.slots 39 { Slot.freed with
    state := .occupied, key := some ⟨kp, 412⟩
    takes := put (Vector.replicate 12 none) 3 (some { firstTake 0 headedAs with state := .released }) } }

theorem witness_ReadsAndCounters :
    serves (turn 1 "QUEUE C15") "QUEUE" 1 (typed ["C15"]) ∧ circuitForm (txt "C15") = some (15 : CircuitNo).val ∧
      serves (stored 1 "STORY KP412") "STORY" 1 (typed ["KP412"]) ∧ keyForm (txt "KP412") = some ⟨kp, 412⟩ ∧
      lookup (stored 1 "") ⟨kp, 412⟩ = some 39 ∧ lookup (turn 1 "") ⟨kp, 412⟩ = none ∧
      serves (turn 1 "COUNTS L23") "COUNTS" 1 (typed ["L23"]) ∧ lineForm (txt "L23") = some (23 : LineNo).val ∧
      serves (turn 1 "COUNTS C15") "COUNTS" 1 (typed ["C15"]) ∧ serves (turn 1 "STATUS") "STATUS" 1 [] ∧
      serves (turn 2 "CLEARCOUNTS") "CLEARCOUNTS" 2 [] := by decide +kernel

theorem witness_HoldAndUnholdAStory :
    serves (stored 1 "HOLD KP412") "HOLD" 1 (typed ["KP412"]) ∧ keyForm (txt "KP412") = some ⟨kp, 412⟩ ∧
      keyForm (txt "KP") = none ∧ lookup (stored 1 "") ⟨kp, 412⟩ = some 39 ∧ heldCount (stored 1 "") < 32 ∧
      lookup (turn 1 "") ⟨kp, 412⟩ = none ∧ slotToAllocate (turn 1 "") = some 39 ∧
      32 ≤ heldCount { turn 1 "" with slots := Vector.replicate 40 { Slot.freed with held := true } } ∧
      serves (stored 1 "UNHOLD KP412") "UNHOLD" 1 (typed ["KP412"]) ∧
      serves (stored 2 "UNHOLDALL") "UNHOLDALL" 2 [] := by decide +kernel

theorem witness_RepeatQueuesTakesAgain :
    repeatForms (typed ["KP412", "T3", "C0", "F"]) =
        some { key := ⟨kp, 412⟩, range := some ((3 : TakeNo).val, (3 : TakeNo).val)
               circuits := ([0] : List CircuitNo).map Fin.val, cls := .flash } ∧
      rangeInRange (some (3, 3)) = true ∧ lookup (stored 1 "") ⟨kp, 412⟩ = some 39 ∧
      serves (stored 1 "REPEAT KP412 T3 C0 F") "REPEAT" 1 (typed ["KP412", "T3", "C0", "F"]) ∧
      isStored (stored 1 "").slots[(39 : SlotNo)] 3 = true ∧
      circuitInService (stored 1 "").circuits[(0 : CircuitNo)] = true ∧ 0 < (stored 1 "").freeCount ∧
      (stored 1 "").circuits[(0 : CircuitNo)].queue = [] ∧
      (modSender (stored 1 "") 0 fun x => { x with state := .closing }).circuits[(0 : CircuitNo)].sender.state = .closing := by
  decide +kernel

theorem witness_WithdrawRemovesAStory :
    keyForm (txt "KP412") = some ⟨kp, 412⟩ ∧ lookup (stored 2 "") ⟨kp, 412⟩ = some 39 ∧
      serves (stored 2 "WITHDRAW KP412") "WITHDRAW" 2 (typed ["KP412"]) := by decide +kernel

theorem witness_ClearsEmptyTheStore :
    serves (stored 3 "CLEARUNHELD") "CLEARUNHELD" 3 [] ∧ serves (stored 3 "CLEARSTORE") "CLEARSTORE" 3 [] := by decide

theorem witness_WaitExpiryPassesTheGap :
    let s := { stored 1 "" with slots := put State.reset.slots 39 { Slot.freed with
      state := .occupied, key := some ⟨kp, 412⟩, category := some ⟨15, 14, 11⟩
      takes := put (Vector.replicate 12 none) 3 (some { firstTake 0 headedAs with state := .waiting }) } }
    s.meanwhile = [] ∧ s.latch.alertMode = false ∧ (∀ c : CircuitNo, s.circuits[c].sender.carried = .nothing) ∧
      (∀ j : TakeNo, isWaiting s.slots[(39 : SlotNo)] j = true → j = 3) ∧
      s.slots[(39 : SlotNo)].category = some ⟨15, 14, 11⟩ ∧ routedSet s ⟨15, 14, 11⟩ kp .urgent = [0] ∧ 1 ≤ s.freeCount ∧
    s.resetLow = false ∧ isWaiting s.slots[(39 : SlotNo)] 3 = true ∧ s.slots[(39 : SlotNo)].key = some ⟨kp, 412⟩ ∧
      cleared s.slots[(39 : SlotNo)] 0 = false ∧ isStored s.slots[(39 : SlotNo)] 0 = false := by decide +kernel

/-! ### Witnesses: circuits, modes and events -/

theorem witness_CircuitSetsTheCircuit :
    serves (turn 3 "CIRCUIT C15 300 7 1 B0 19 256 0 ON") "CIRCUIT" 3
        (typed ["C15", "300", "7", "1", "B0", "19", "256", "0", "ON"]) ∧
      circuitForm (txt "C15") = some (15 : CircuitNo).val ∧ circuitForm (txt "C16") = some 16 ∧
      rateSetForm (txt "300") = some onlyRate300 ∧ rateSetForm (txt "-") = some (noneOf 8) ∧
      widthForm (txt "7") = some .seven ∧ stopForm (txt "1") = some .one ∧ bankInRange (txt "B0") = some 0 ∧
      number? (txt "19") = some 19 ∧ number? (txt "256") = some 256 ∧ number? (txt "0") = some 0 ∧
      onOffForm (txt "ON") = some true ∧ kindMatches .seven (turn 3 "").banks[(0 : BankNo)].kind = true ∧
      kindMatches .five (turn 3 "").banks[(0 : BankNo)].kind = false ∧
      (turn 3 "").circuits[(15 : CircuitNo)].sender.state = .stopped ∧
      (turn 3 "").circuits[(15 : CircuitNo)].sender.missed ≤ 65535 ∧
      (queued [] [] .nothing).circuits[(1 : CircuitNo)].sender.state ≠ .stopped := by decide

/-- `turn` quiet, C1 carrying one record over a suspended one, a third queued, on the unloaded bank B3, as is L0 where `l` says so,
whose framer fills T0 of S39. -/
def unloaded (v : Level) (t : String) (l : Bool) : State :=
  { turn v t with
    lines := modAt (filling .drop 0 5 false 0).lines 0 fun x => { x with desc := { x.desc with bank := if l then 3 else 0, width := .seven } }
    slots := (filling .drop 0 5 false 0).slots
    circuits := modAt (queued [recOf .routine] [recOf .urgent] (.record (recOf .flash))).circuits 1 fun x =>
      { x with desc := { x.desc with bank := 3 } } }

theorem witness_CircuitSetsTheCircuit_out :
    let s := modSender (unloaded 3 "CIRCUIT C1 - 7 1 B0 69 15 30 OFF" false) 1 fun x => { x with state := .stopped }
    serves s "CIRCUIT" 3 (typed ["C1", "-", "7", "1", "B0", "69", "15", "30", "OFF"]) ∧
      s.circuits[(1 : CircuitNo)].sender.state = .stopped ∧ missedBy s.circuits[(1 : CircuitNo)] = 3 ∧
      missedBy (modSender (queued [] [] (.record (recOf .flash))) 1 fun x => x).circuits[(1 : CircuitNo)] = 1 ∧
      keyOfRecord s (recOf .flash) = some ⟨kp, 412⟩ ∧ s.latch.alertMode = false ∧
      s.circuits[(1 : CircuitNo)].sender.missed ≤ 65535 := by decide +kernel

theorem witness_WakeChecksTheTables_out :
    let s := unloaded 2 "WAKE" false
    serves s "WAKE" 2 [] ∧ s.mode.quiet = true ∧ (∀ l : LineNo, lineInService s.lines[l] = true → l = 0) ∧
      s.banks[s.lines[(0 : LineNo)].desc.bank].loaded = true ∧
      kindMatches s.lines[(0 : LineNo)].desc.width s.banks[s.lines[(0 : LineNo)].desc.bank].kind = true ∧
      circuitInService s.circuits[(1 : CircuitNo)] = true ∧
      s.banks[s.circuits[(1 : CircuitNo)].desc.bank].loaded = false ∧
      s.circuits[(1 : CircuitNo)].sender.carried = .record (recOf .flash) ∧
      keyOfRecord s (recOf .flash) = some ⟨kp, 412⟩ ∧
      (unloaded 2 "WAKE" true).banks[(unloaded 2 "WAKE" true).lines[(0 : LineNo)].desc.bank].loaded = false ∧
      (unloaded 2 "WAKE" true).lines[(0 : LineNo)].framer = framing .copyBody .copy 0 [] (some (39, 0)) ∧
      (takeAt (unloaded 2 "WAKE" true) 39 0).map Take.state = some .filling := by decide +kernel

theorem unloaded_framers : FramersSound (unloaded 2 "WAKE" true) := by
  have others : ∀ l : LineNo, l ≠ 0 → (unloaded 2 "WAKE" true).lines[l].framer.takeRef = none := by decide +kernel
  intro l n t h
  by_cases e : l = 0
  · subst e
    cases h
    exact ⟨rfl, _, rfl, by decide +kernel, rfl⟩
  · rw [others l e] at h
    cases h

theorem unloaded_idle : IdleCarriesNothing (unloaded 2 "WAKE" false) := by unfold IdleCarriesNothing; decide +kernel

theorem unloaded_named : WaitingAreNamed (unloaded 2 "WAKE" false) := by unfold WaitingAreNamed; decide +kernel

/-- R14, R154: the check cuts the take of L0 and takes C1 out of service with its three records. -/
theorem test_check_puts_out :
    (match step { unloaded 2 "WAKE" true with pending := [.wake []] } with
    | .next t => (t.lines[(0 : LineNo)].outOfService, (takeAt t 39 0).map fun k => k.current.cut,
        t.circuits[(1 : CircuitNo)].sender.missed, t.circuits[(1 : CircuitNo)].sender.state)
    | _ => (false, none, 0, .carrying)) = (true, some true, 3, .stopped) := by decide +kernel

/-- A sender of C1 so. -/
def sending (x : Sender) : State := modSender (queued [recOf .flash] [] .nothing) 1 fun _ => x

theorem witness_MotorTimersAndTheSecond :
    (sending { Sender.reset with state := .starting, motorTimer := some 15 }).resetLow = false ∧
      (sending { Sender.reset with state := .starting, motorTimer := some 15 }).circuits[(1 : CircuitNo)].sender.state =
        .starting ∧
      (sending { Sender.reset with state := .pausing, runOnTimer := some 30 }).circuits[(1 : CircuitNo)].sender.state =
        .pausing := by decide

/-- C1 sending a character of T0 of S39, a text of four characters, in a phase and a state. -/
def printing (x : SenderState) (p : Phase) (h : House) (r : Rec) (pos : Nat) (tail : Text) (pend : Bool) : State :=
  { sending { Sender.reset with
      state := x, motor := true, carried := .record r, phase := p, bodyPos := pos, tail := tail, breakPending := pend
      lead := txt "= ", gap := txt "= ", header := txt "KP"
      sending := some { char := h, phase := p, codes := [0] } } with
    slots := put State.reset.slots 39 { Slot.freed with
      state := .occupied, key := some ⟨kp, 412⟩, pendingCount := 2
      takes := put (Vector.replicate 12 none) 0 (some { firstTake 0 headedAs with
        state := .released, current := ⟨[0], txt "A B ", false⟩ }) } }

theorem witness_TheNextCharacterIsTaken :
    let s := printing .carrying .body 65 (recOf .routine) 1 [] false
    s.resetLow = false ∧ s.circuits[(1 : CircuitNo)].sender.sending = some ⟨65, .body, [0]⟩ ∧
      s.circuits[(1 : CircuitNo)].sender.carried = .record (recOf .routine) ∧ (recOf .routine).ref ≠ none ∧
      s.circuits[(1 : CircuitNo)].sender.state = .carrying ∧ s.circuits[(1 : CircuitNo)].sender.phase = .body ∧
      s.circuits[(1 : CircuitNo)].sender.breakPending = false ∧
      (readVersion s (recOf .routine)).text[s.circuits[(1 : CircuitNo)].sender.bodyPos]? = some 32 := by decide +kernel

theorem witness_DeliveriesFinish :
    let s := printing .closing .trailer houseNL (recOf .routine) 4 [] false
    s.resetLow = false ∧ s.circuits[(1 : CircuitNo)].sender.sending = some ⟨houseNL, .trailer, [0]⟩ ∧
      s.circuits[(1 : CircuitNo)].sender.carried = .record (recOf .routine) ∧
      (recOf .routine).ref = some ⟨39, 0, .current⟩ ∧ s.circuits[(1 : CircuitNo)].sender.state = .closing ∧
      s.circuits[(1 : CircuitNo)].sender.phase = .trailer ∧ s.circuits[(1 : CircuitNo)].sender.tail = [] := by decide

theorem witness_BreaksAreMade :
    IsBest (isBreaker (printing .carrying .body 65 (recOf .routine) 1 [] true) 1 .routine)
        (scoreOf (printing .carrying .body 65 (recOf .routine) 1 [] true)) [recOf .flash] 0 ∧
      (let s := printing .carrying .body 65 (recOf .routine) 1 [] true
      s.circuits[(1 : CircuitNo)].queue = [recOf .flash] ∧ s.resetLow = false ∧
      s.circuits[(1 : CircuitNo)].sender.sending = some ⟨65, .body, [0]⟩ ∧
      s.circuits[(1 : CircuitNo)].sender.carried = .record (recOf .routine) ∧
      s.circuits[(1 : CircuitNo)].sender.state = .carrying ∧
      s.circuits[(1 : CircuitNo)].sender.breakPending = true ∧
      (printing .carrying .lead 65 (recOf .routine) 1 [] true).circuits[(1 : CircuitNo)].sender.lead ≠ [] ∧
      (printing .carrying .gap 65 (recOf .routine) 1 [] true).circuits[(1 : CircuitNo)].sender.gap ≠ [] ∧
      (printing .carrying .header 65 (recOf .routine) 1 [] true).circuits[(1 : CircuitNo)].sender.header ≠ [] ∧
      s.circuits[(1 : CircuitNo)].sender.bodyPos < (readVersion s (recOf .routine)).text.length) := by
  refine ⟨⟨recOf .flash, rfl, by decide, ?_, ?_⟩, by decide +kernel⟩
  · intro j x hj _
    match j with
    | 0 => simp at hj; subst hj; exact Nat.le_refl _
    | k + 1 => simp at hj
  · intro j x hj
    exact absurd hj (Nat.not_lt_zero j)

/-- R140: a record broken off in its prelude is resumed with the header line it was started with. -/
theorem test_header_is_kept :
    let s := printing .carrying .lead 65 (recOf .bulletin) 0 [] true
    (suspended s.circuits[(1 : CircuitNo)].sender (recOf .bulletin)).composed = some (txt "KP") ∧
      (beginRecord s (suspended s.circuits[(1 : CircuitNo)].sender (recOf .bulletin)) false Sender.reset).header = txt "KP" := by
  decide +kernel

theorem witness_CutsAndClosesEnd :
    let d : Rec := { recOf .routine with ref := none }
    let s := printing .closing .body houseNL (recOf .routine) 2 [] false
    (printing .carrying .body 65 d 1 [] false).circuits[(1 : CircuitNo)].sender.carried = .record d ∧ d.ref = none ∧
      (printing .carrying .body 65 d 1 [] false).circuits[(1 : CircuitNo)].sender.phase ≠ .cut ∧
      (printing .carrying .cut 65 d 1 [] false).circuits[(1 : CircuitNo)].sender.phase = .cut ∧
      (printing .carrying .cut 65 d 1 [] false).circuits[(1 : CircuitNo)].sender.tail = [] ∧
      s.resetLow = false ∧ s.circuits[(1 : CircuitNo)].sender.sending = some ⟨houseNL, .body, [0]⟩ ∧
      s.circuits[(1 : CircuitNo)].sender.carried = .record (recOf .routine) ∧
      (recOf .routine).ref = some ⟨39, 0, .current⟩ ∧ s.circuits[(1 : CircuitNo)].sender.state = .closing ∧
      s.circuits[(1 : CircuitNo)].sender.phase = .body ∧
      s.circuits[(1 : CircuitNo)].sender.bodyPos < (readVersion s (recOf .routine)).text.length ∧
      { s with circuits := modAt s.circuits 1 fun y => { y with queue := [] } }.circuits[(1 : CircuitNo)].queue = [] := by
  decide +kernel

/-- C0, the report circuit, sending a character of the report `HI`. -/
def reporting (p : Phase) (pos : Nat) (told : Option CutLine) (tail : Text) (owed : Bool) : State :=
  { modSender State.reset 0 fun x => { x with
      state := .carrying, motor := true, carried := .report, phase := p, reportPos := pos, cutTold := told, tail := tail
      column := 1, sending := some { char := 72, phase := p, codes := [72] } } with
    mgmt := { Mgmt.reset with reports := [txt "HI"] }
    latch :=
      { alertMode := true
        entries := put Latch.reset.entries 4
          { latched := true, detail := some (.line 3), count := 2, masked := false, owed := owed } } }

theorem witness_ReportsFinishAndAreCut :
    let s := reporting .report 1 none [] true
    s.resetLow = false ∧ s.circuits[(0 : CircuitNo)].sender.sending = some ⟨72, .report, [72]⟩ ∧
      s.circuits[(0 : CircuitNo)].sender.carried = .report ∧ s.circuits[(0 : CircuitNo)].sender.state = .carrying ∧
      s.circuits[(0 : CircuitNo)].sender.phase = .report ∧ s.circuits[(0 : CircuitNo)].sender.cutTold = none ∧
      (s.mgmt.reports.headD [])[s.circuits[(0 : CircuitNo)].sender.reportPos]? = some 73 ∧
      (s.mgmt.reports.headD []).length ≤ (reporting .report 2 none [] true).circuits[(0 : CircuitNo)].sender.reportPos ∧
      s.mgmt.reportCircuit = 0 ∧ s.mgmt.reports.length ≤ 8 ∧ (entryOf s .lineBreak).owed = true ∧
      (reporting .report 1 (some .storeCut) [] true).circuits[(0 : CircuitNo)].sender.cutTold = some .storeCut ∧
      (reporting .cut 1 (some .storeCut) [] true).circuits[(0 : CircuitNo)].sender.tail = [] ∧
      (reporting .cut 1 (some .storeCut) [] true).circuits[(0 : CircuitNo)].sender.phase = .cut := by decide +kernel

/-- R144, R184: the report leaves, the owed alert takes its room, and the sender carries it. -/
theorem test_report_leaves :
    (match step { reporting .report 2 none [] true with pending := [.characterSent 0] } with
    | .next t => (t.mgmt.reports, (entryOf t .lineBreak).owed, t.circuits[(0 : CircuitNo)].sender.state)
    | _ => ([], true, .stopped)) =
      ([lineOf (txt "//A LINE_BREAK L3 2") ++ lineOf (txt "//E")], false, .carrying) := by decide +kernel

theorem witness_ReportToMovesTheReports :
    serves (turn 3 "REPORTTO C15") "REPORTTO" 3 (typed ["C15"]) ∧ circuitForm (txt "C15") = some (15 : CircuitNo).val ∧
      circuitForm (txt "C16") = some 16 ∧ circuitForm (txt "15") = none ∧
      (turn 3 "").mgmt.reportCircuit ≠ 15 ∧ serves (turn 3 "REPORTTO C0") "REPORTTO" 3 (typed ["C0"]) ∧
      circuitForm (txt "C0") = some (turn 3 "").mgmt.reportCircuit.val := by decide

/-- `turn` with the part awake, in REDUCED service. -/
def awake (v : Level) (t : String) : State :=
  { turn v t with mode := { Mode.reset with quiet := false, service := .reduced } }

theorem witness_ModeRequestsTellTheSenders :
    serves (turn 2 "QUIET") "QUIET" 2 [] ∧ (turn 2 "").mode.quiet = true ∧ serves (awake 2 "QUIET") "QUIET" 2 [] ∧
      (awake 2 "").mode.quiet = false ∧ serves (turn 2 "FULL") "FULL" 2 [] ∧ (turn 2 "").mode.service = .full ∧
      serves (awake 2 "FULL") "FULL" 2 [] ∧ (awake 2 "").mode.service = .reduced ∧
      serves (turn 2 "REDUCED C4 C4") "REDUCED" 2 (typed ["C4", "C4"]) ∧
      circuitForm (txt "C4") = some (4 : CircuitNo).val ∧ circuitForm (txt "C3") = some 3 ∧
      circuitForm (txt "C16") = some 16 ∧ circuitForm (txt "4") = none := by decide

theorem witness_WakeChecksTheTables :
    serves (turn 2 "WAKE") "WAKE" 2 [] ∧ (turn 2 "WAKE").mode.quiet = true ∧ serves (awake 2 "WAKE") "WAKE" 2 [] ∧
      (awake 2 "WAKE").mode.quiet = false := by decide

theorem witness_ExecutionEndsWithTheReply :
    serves (turn 3 "RESTART") "RESTART" 3 [] ∧
      (popLine (turn 3 "RESTART")).resetLow = false ∧ (popLine (turn 3 "RESTART")).mgmt.buffer = .executing ∧
      (popLine (turn 3 "RESTART")).mgmt.lines = [] ∧ (popLine (turn 3 "RESTART")).mgmt.reply = some ⟨[], 0⟩ ∧
      (popLine (turn 3 "RESTART")).mgmt.reports.length < 8 ∧
      8 ≤ (modMgmt (turn 3 "") fun m => { m with reports := List.replicate 8 [] }).mgmt.reports.length := by decide

/-- `turn` with LINE_BREAK latched for L3, masked or not, in polled or alert mode, and `n` reports waiting. -/
def latched (v : Level) (t : String) (masked alert : Bool) (n : Nat) : State :=
  { modMgmt (turn v t) (fun m => { m with reports := List.replicate n [] }) with
    latch :=
      { alertMode := alert
        entries := put Latch.reset.entries 4
          { latched := true, detail := some (.line 3), count := 2, masked := masked, owed := false } } }

theorem witness_EventsAreGivenOutByPriority :
    serves (latched 1 "EVENTS" false false 0) "EVENTS" 1 [] ∧ (latched 1 "" false false 0).latch.alertMode = false ∧
      (latched 1 "" false true 0).latch.alertMode = true ∧ (entryOf (latched 1 "" false false 0) .lineBreak).latched = true ∧
      (entryOf (latched 1 "" false false 0) .lineBreak).masked = false ∧
      (entryOf (latched 1 "" false false 0) .lineBreak).detail = some (.line 3) ∧
      (∀ i : Fin 12, i < kindIdx .lineBreak → (latched 1 "" false false 0).latch.entries[i].latched = false) ∧
      (∀ i : Fin 12, (turn 1 "").latch.entries[i].latched = false) ∧
      serves (latched 2 "CLEAREVENT LINE_BREAK" false true 0) "CLEAREVENT" 2 (typed ["LINE_BREAK"]) ∧
      eventTok .lineBreak = txt "LINE_BREAK" ∧ (∀ k ∈ allKinds, eventTok k ≠ txt "LINE-BREAK") := by decide

theorem witness_MasksAndAlertsAreSet :
    serves (latched 2 "MASK LINE_BREAK OFF" true true 7) "MASK" 2 (typed ["LINE_BREAK", "OFF"]) ∧
      eventTok .lineBreak = txt "LINE_BREAK" ∧ onOffForm (txt "OFF") = some false ∧ onOffForm (txt "ON") = some true ∧
      onOffForm (txt "on") = none ∧ (entryOf (latched 2 "" true true 7) .lineBreak).masked = true ∧
      (entryOf (latched 2 "" false true 7) .lineBreak).masked = false ∧ (latched 2 "" true true 7).mgmt.reports.length < 8 ∧
      8 ≤ (latched 2 "" true true 8).mgmt.reports.length ∧
      serves (latched 2 "ALERTS ON" false false 7) "ALERTS" 2 (typed ["ON"]) ∧
      (latched 2 "" false false 7).latch.alertMode = false ∧ (latched 2 "" false false 7).mgmt.reports.length ≤ 8 ∧
      serves (latched 2 "ALERTS OFF" false true 8) "ALERTS" 2 (typed ["OFF"]) ∧
      (latched 2 "" false true 8).latch.alertMode = true := by decide

/-- A part at work: the story KP412 in S0, its take printed on C0 as a BULLETIN over a suspended ROUTINE record of the text that
a substitute has superseded, a third record queued on C1, LINE_BREAK latched and owed in alert mode, a header begun on L0, and the second about to be taken. -/
def atWork : State :=
  let f : RecRef := { slot := 0, take := 0, version := .current }
  let r : Rec := { ref := some f, cls := .routine, kind := .new, gap := [], age := 5, resume := some 3, composed := none }
  { State.reset with
    lines := modAt State.reset.lines 0 fun x => { x with
      framer := { Framer.inHeader .copy with header := txt "KP 4" }, counters := { x.counters with messagesTaken := 2 } }
    slots := put State.reset.slots 0
      { Slot.freed with
        state := .occupied, key := some ⟨kp, 412⟩, held := true, pendingCount := 3
        takes := put (Vector.replicate 12 none) 0 (some { firstTake 0 headedAs with
          state := .released, releasedFlag := true, subCount := 1, current := ⟨[1], txt "NEW TEXT", false⟩
          superseded := some (⟨[0], txt "OLD TEXT", false⟩, 1) })
        blockMap := setOf [0, 1] }
    freeCount := 189
    circuits := modAt (modAt State.reset.circuits 1 fun x => { x with queue := [r] }) 0 fun x => { x with
      sender := { x.sender with
        state := .carrying, motor := true, carried := .record { r with cls := .bulletin }, phase := .body
        chain := [{ r with ref := some { f with version := .superseded } }]
        column := 7, sending := some { char := 65, phase := .body, codes := [65] } } }
    latch :=
      { alertMode := true
        entries := put Latch.reset.entries 4
          { latched := true, detail := some (.line 3), count := 2, masked := false, owed := true } }
    pending := [.secondAgeing] }

/-- The part at work takes its second. -/
theorem witness_step_atWork : ∃ t, step atWork = .next t ∧ t.circuits[(1 : CircuitNo)].queue.map Rec.age = [6] :=
  ⟨_, rfl, by decide +kernel⟩

/-- The take in S0 of the part at work. -/
theorem atWork_take : ∀ (n : SlotNo) (t : TakeNo) (k : Take), takeAt atWork n t = some k → n = 0 ∧ t = 0 := by
  have key : ∀ (n : SlotNo) (t : TakeNo), (takeAt atWork n t).isSome = true → n = 0 ∧ t = 0 := by decide +kernel
  intro n t k h
  exact key n t (by simp [h])

theorem atWork_takes : ∀ (n : SlotNo) (t : TakeNo) (k : Take), takeAt atWork n t = some k → k.subCount ≤ 15 := by
  intro n t k h
  obtain ⟨rfl, rfl⟩ := atWork_take n t k h
  cases h
  decide

theorem atWork_ages : ∀ c : CircuitNo, (∀ r ∈ atWork.circuits[c].queue, r.age ≤ 4095) ∧
    (∀ r ∈ atWork.circuits[c].sender.chain, r.age ≤ 4095) ∧
    ∀ r, atWork.circuits[c].sender.carried = .record r → r.age ≤ 4095 := by
  intro c
  refine ⟨?_, ?_, fun r h => ?_⟩
  · revert c; decide +kernel
  · revert c; decide +kernel
  · have key : ∀ c : CircuitNo, (match atWork.circuits[c].sender.carried with
        | .record r => decide (r.age ≤ 4095)
        | _ => true) = true := by decide +kernel
    have := key c
    rw [h] at this
    simpa using this

theorem witness_RangesAndLatchAreKept : TablesSound atWork ∧ CountersSound atWork ∧ LatchSound atWork :=
  ⟨⟨by decide +kernel, by decide +kernel, by decide +kernel, by decide +kernel, by decide +kernel, by decide +kernel,
      by decide +kernel, by decide +kernel, by decide +kernel⟩,
    ⟨by decide +kernel, by decide +kernel, by decide +kernel, atWork_ages, atWork_takes⟩,
    ⟨by decide +kernel, by decide +kernel, by decide +kernel⟩⟩

theorem witness_TheSlotsStaySound : SlotsSound atWork :=
  ⟨by decide +kernel, by decide +kernel, by decide +kernel, by decide +kernel, by decide +kernel⟩

/-- `unloaded`, which meets FramersSound with a take being filled, meets SlotsSound as well. -/
theorem witness_TheSlotsStaySound_framers : SlotsSound (unloaded 2 "WAKE" true) ∧ FramersSound (unloaded 2 "WAKE" true) :=
  ⟨⟨by decide +kernel, by decide +kernel, by decide +kernel, by decide +kernel, by decide +kernel⟩, unloaded_framers⟩

theorem atWork_idle : IdleCarriesNothing atWork := by unfold IdleCarriesNothing; decide +kernel

theorem witness_ThePoolIsConserved : PoolSound atWork := ⟨by decide +kernel, atWork_idle⟩

theorem witness_PendingCountsAreExact : PendingSound atWork := ⟨by decide +kernel, by decide +kernel, atWork_idle⟩

/-- Beside C0 and S0 everything of the part at work stands as after reset. -/
theorem atWork_elsewhere : (∀ c : CircuitNo, c ≠ 0 → atWork.circuits[c].sender = Sender.reset) ∧
    ∀ n : SlotNo, n ≠ 0 → atWork.slots[n] = Slot.freed := by decide +kernel

theorem witness_SupersededReadersAreExact : PendingSound atWork ∧ ReadersSound atWork := by
  refine ⟨witness_PendingCountsAreExact, ?_, ?_, ?_, ?_⟩
  · intro n t k v m h hs
    obtain ⟨rfl, rfl⟩ := atWork_take n t k h
    cases h
    cases hs
    decide +kernel
  · intro n t h
    have ne : ¬(n = 0 ∧ t = 0) := by
      rintro ⟨rfl, rfl⟩
      exact absurd (h _ rfl) (by decide)
    have each : ∀ c : CircuitNo, carriedCount (reads n t .superseded) atWork.circuits[c].sender +
        (atWork.circuits[c].sender.chain.filter (reads n t .superseded)).length = 0 := by
      intro c
      by_cases e : c = 0
      · subst e
        have carried : atWork.circuits[(0 : CircuitNo)].sender.carried =
            .record { recOf .bulletin with ref := some ⟨0, 0, .current⟩, age := 5, resume := some 3 } := by decide +kernel
        have chain : atWork.circuits[(0 : CircuitNo)].sender.chain =
            [{ recOf .routine with ref := some ⟨0, 0, .superseded⟩, age := 5, resume := some 3 }] := by decide +kernel
        have ne' : ¬(0 = n ∧ 0 = t) := fun q => ne ⟨q.1.symm, q.2.symm⟩
        unfold carriedCount
        rw [carried, chain]
        simp [reads, ne']
      · rw [atWork_elsewhere.1 c e]; rfl
    simp only [readersWhere, each]
    decide
  · intro c r hr f hf
    have key : ∀ c : CircuitNo, ∀ r ∈ atWork.circuits[c].queue, r.ref.map RecRef.version = some .current := by
      decide +kernel
    have := key c r hr
    rw [hf] at this
    simpa using this
  · unfold WaitingAreNamed
    decide +kernel

theorem witness_BlocksStandInOneVersion : VersionsSound atWork := by
  have empty : blocksOf Slot.freed = [] := by decide +kernel
  refine ⟨fun n => ?_, fun n b => ?_, ?_, ?_⟩
  · by_cases e : n = 0
    · subst e; decide +kernel
    · rw [atWork_elsewhere.2 n e, empty]; exact List.nodup_nil
  · by_cases e : n = 0
    · subst e; revert b; decide +kernel
    · rw [atWork_elsewhere.2 n e, empty]
      simp [Slot.freed, noneOf]
  · intro n t k h
    obtain ⟨rfl, rfl⟩ := atWork_take n t k h
    cases h
    decide +kernel
  · intro n t k h hr
    obtain ⟨rfl, rfl⟩ := atWork_take n t k h
    cases h
    exact absurd rfl hr

theorem witness_ChainsStayOrdered :
    ChainsSound atWork ∧ (atWork.circuits[(0 : CircuitNo)].sender.chain.map Rec.cls) = [.routine] := by
  refine ⟨fun c => ⟨?_, fun r t hr ht => ?_⟩, by decide +kernel⟩
  · revert c; decide +kernel
  · have only : ∀ c : CircuitNo, c ≠ 0 → atWork.circuits[c].sender.chain = [] := by decide +kernel
    by_cases h : c = 0
    · subst h
      cases hr
      cases ht
      exact ⟨Or.inr rfl, rfl⟩
    · rw [only c h] at ht
      cases ht

theorem witness_SendersStaySound : SendersSound atWork := by
  intro c
  refine ⟨?_, ?_, fun g hg _ => ?_, ?_, ?_, ?_, ?_⟩
  case refine_3 =>
    have column : ∀ c : CircuitNo, atWork.circuits[c].sender.column < atWork.circuits[c].desc.carriage := by decide +kernel
    exact column c
  all_goals revert c; decide +kernel

theorem witness_OutboundConversionInsertsShifts :
    (Bank.emptied .seven).kind = .seven ∧ (Bank.emptied .five).kind = .five ∧ Belief.unknown ≠ .letters ∧
      Belief.unknown ≠ .figures ∧ { Bank.emptied .five with lettersShift := some 31 }.lettersShift = some 31 ∧
      { Bank.emptied .five with figuresShift := some 27 }.figuresShift = some 27 ∧
      (Bank.emptied .five).lettersShift = none ∧ (Bank.emptied .five).figuresShift = none := by decide +kernel

theorem witness_RequestLinesReadBack :
    (Instr.hold (typed ["KP412"])).wellFormed = true ∧ (Instr.hold (typed ["KP412"])).request? =
        some (txt "HOLD", typed ["KP412"]) ∧ Mgmt.reset.collecting = [] ∧ Mgmt.reset.tooLong = false ∧
      Mgmt.reset.lines.length < 16 := by decide

/-! ### Single steps -/

/-- R89: TAKEWAIT typed above its range is clamped and answered with the limit as stored. -/
theorem test_takewait_step :
    (match step { turn 3 "TAKEWAIT 0999" with pending := [.takewait (typed ["0999"])] } with
    | .next t => (t.takeWait, t.mgmt.reply.map Reply.text)
    | _ => (0, none)) = (255, some (lineOf (txt "TAKEWAIT DONE 255"))) := by decide

/-- R102: FLIP on a circuit that is a member answers IN and takes it out. -/
theorem test_flip_step :
    (match step { routing 3 "FLIP E63 C2" true with
        pending := [.flip (typed ["E63", "C2"])]
        routes := put State.reset.routes 63 { RouteEntry.unused with inUse := true, circuits := setOf [2, 5] } } with
    | .next t => (members t.routes[(63 : EntryNo)].circuits, t.mgmt.reply.map Reply.text)
    | _ => ([], none)) = ([5], some (lineOf (txt "FLIP DONE IN"))) := by decide

/-- R11: the marking interval's expiry takes the line out of break, and the silence timer is loaded with 60 seconds. -/
theorem test_marking_interval_step :
    (match step { (heard .drop (framing .broken .copy 0 [] none) LineCounters.zero) with
        pending := [.spaceToMarkTransition 0] } with
    | .next t => t.lines[(0 : LineNo)].receiver.state
    | _ => .idle) = .idle ∧
    (match exec (.markingIntervalExpires 0)
        (modReceiver (heard .drop (framing .broken .copy 0 [] none) LineCounters.zero) 0 fun _ => ⟨.brk, none, some 15⟩) with
    | .next t => (t.lines[(0 : LineNo)].receiver.state, t.lines[(0 : LineNo)].framer.state, t.lines[(0 : LineNo)].silence)
    | _ => (.brk, .broken, none)) = (.idle, .hunt, some 60) := by decide

end Sys2Proof.Tests
end

/-! ## Events in the course of traffic

What the latch holds of a kind (R179, R181) while the store, the senders and the framers are at work: the kinds that traffic
raises are few, and of every other kind the latch stays as it was, up to the mark that its alert is owed (R184). -/

namespace Sys2Proof.Machine

open Sys2Proof

/-- What an occurrence sets of a kind's entry (R181): the flag, the detail and the count. -/
def occurrence (s : State) (k : EventKind) : Bool × Option Detail × Nat :=
  ((entryOf s k).latched, (entryOf s k).detail, (entryOf s k).count)

/-- The kinds that a story, a delivery, a header or a report can raise. -/
def trafficKinds : List EventKind := [.poolEmpty, .deliveryMissed, .takeCut, .headerFault, .reportDropped, .takeGap]

/-- Of every kind but those of the traffic, no occurrence has reached the latch and none has been cleared. -/
def TrafficEvents (s t : State) : Prop := ∀ k, k ∉ trafficKinds → occurrence t k = occurrence s k

theorem TrafficEvents.refl (s : State) : TrafficEvents s s := fun _ _ => rfl

theorem TrafficEvents.trans {s t u : State} (h : TrafficEvents s t) (g : TrafficEvents t u) : TrafficEvents s u :=
  fun k hk => (g k hk).trans (h k hk)

/-- `trans` with the later change first. -/
theorem TrafficEvents.after {s t u : State} (g : TrafficEvents t u) (h : TrafficEvents s t) : TrafficEvents s u :=
  h.trans g

theorem occurrence_of_latch {s t : State} (h : t.latch = s.latch) (k : EventKind) : occurrence t k = occurrence s k := by
  simp only [occurrence, entryOf, h]

theorem TrafficEvents.of_latch {s t : State} (h : t.latch = s.latch) : TrafficEvents s t :=
  fun k _ => occurrence_of_latch h k

theorem OnlyCircuit.traffic {c : CircuitNo} {s t : State} (h : OnlyCircuit c s t) : TrafficEvents s t := .of_latch h.latch

/-! ### Entries -/

theorem allKinds_kindIdx (k : EventKind) : allKinds[(kindIdx k).val]? = some k := by cases k <;> rfl

theorem kindIdx_injective {j k : EventKind} (h : kindIdx j = kindIdx k) : j = k := by
  have e := allKinds_kindIdx j
  rw [h, allKinds_kindIdx k] at e
  exact (Option.some.inj e).symm

theorem entryOf_modEntry_same (s : State) (k : EventKind) (f : LatchEntry → LatchEntry) :
    entryOf (modEntry s k f) k = f (entryOf s k) := modAt_same _ _ f

theorem entryOf_modEntry_other (s : State) {j k : EventKind} (f : LatchEntry → LatchEntry) (h : k ≠ j) :
    entryOf (modEntry s j f) k = entryOf s k := modAt_other _ f fun e => h (kindIdx_injective e)

/-- Whether an alert is owed is no part of an occurrence. -/
theorem occurrence_modOwed (s : State) (j k : EventKind) (b : Bool) :
    occurrence (modEntry s j fun e => { e with owed := b }) k = occurrence s k := by
  by_cases h : k = j
  · subst h; simp only [occurrence, entryOf_modEntry_same]
  · simp only [occurrence, entryOf_modEntry_other s _ h]

/-! ### Reports and occurrences -/

theorem pushReport_latch (s : State) (t : Text) : (pushReport s t).latch = s.latch := (offer_only _ _).latch

theorem occurrence_alertDue (s : State) (j k : EventKind) : occurrence (alertDue s j) k = occurrence s k := by
  unfold alertDue
  split
  · exact occurrence_of_latch (pushReport_latch s _) k
  · exact occurrence_modOwed s j k true

/-- Whether a kind has occurred between two states is a matter of its occurrences in them. -/
theorem Occurred.congr {k : EventKind} {d : Detail} {s s' t t' : State} (h : Occurred k d s t)
    (before : occurrence s' k = occurrence s k) (after : occurrence t' k = occurrence t k) : Occurred k d s' t' := by
  simp only [occurrence, Prod.mk.injEq] at before after
  obtain ⟨bLatched, bDetail, bCount⟩ := before
  obtain ⟨aLatched, aDetail, aCount⟩ := after
  unfold Occurred at h ⊢
  rw [bLatched, bDetail, bCount, aLatched, aDetail, aCount]
  exact h

/-- R181: after `raise` the occurrence has reached the latch. -/
theorem raise_occurred (s : State) (k : EventKind) (d : Detail) : Occurred k d s (raise s k d) := by
  unfold raise
  dsimp only
  split
  · next latched => simp [Occurred, entryOf_modEntry_same, latched]
  · next clear =>
    have set : Occurred k d s (modEntry s k fun e => { e with latched := true, detail := some d, count := 1 }) := by
      simp [Occurred, entryOf_modEntry_same, clear]
    split
    · exact set.congr rfl (occurrence_alertDue _ k k)
    · exact set

/-- R181: an occurrence of one kind leaves the other kinds. -/
theorem occurrence_raise_other (s : State) {j k : EventKind} (d : Detail) (h : k ≠ j) :
    occurrence (raise s j d) k = occurrence s k := by
  have other : ∀ f, occurrence (modEntry s j f) k = occurrence s k := fun f => by
    simp only [occurrence, entryOf_modEntry_other s f h]
  unfold raise
  dsimp only
  split
  · exact other _
  · split
    · exact (occurrence_alertDue _ j k).trans (other _)
    · exact other _

theorem raise_traffic (s : State) {j : EventKind} (d : Detail) (h : j ∈ trafficKinds) : TrafficEvents s (raise s j d) :=
  fun _ hk => occurrence_raise_other s d fun e => hk (e ▸ h)

/-- What has occurred stays so while nothing but traffic follows. -/
theorem Occurred.before {k : EventKind} {d : Detail} {s t u : State} (h : Occurred k d s t) (g : TrafficEvents t u)
    (hk : k ∉ trafficKinds) : Occurred k d s u := h.congr rfl (g k hk)

/-- What occurs after nothing but traffic has occurred since the state before it. -/
theorem Occurred.since {k : EventKind} {d : Detail} {s t u : State} (h : Occurred k d t u) (g : TrafficEvents s t)
    (hk : k ∉ trafficKinds) : Occurred k d s u := h.congr (g k hk).symm rfl

/-- With the alert mode off an occurrence places no report (R183). -/
theorem raise_mgmt_quiet (s : State) (k : EventKind) (d : Detail) (h : s.latch.alertMode = false) :
    (raise s k d).mgmt = s.mgmt := by
  unfold raise
  dsimp only
  split
  · rfl
  · simp only [h, Bool.false_and]
    rfl

theorem placeReply_traffic (s : State) (t : Text) : TrafficEvents s (placeReply s t) := by
  unfold placeReply
  split
  · exact .of_latch (pushReport_latch s t)
  · exact raise_traffic s _ (by decide)

theorem payOwed_traffic (s : State) (k : EventKind) : TrafficEvents s (payOwed s k) := by
  unfold payOwed
  split
  · intro j _
    exact (occurrence_of_latch (pushReport_latch _ _) j).trans (occurrence_modOwed s k j false)
  · exact .refl s

theorem reportLeaves_traffic (s : State) : TrafficEvents s (reportLeaves s) :=
  (foldl_keeps TrafficEvents .refl .trans payOwed payOwed_traffic allKinds _).after (.of_latch rfl)

/-! ### Records and characters sent -/

theorem modSlot_traffic (s : State) (n : SlotNo) (f : Slot → Slot) : TrafficEvents s (modSlot s n f) := .of_latch rfl

theorem modTake_traffic (s : State) (n : SlotNo) (t : TakeNo) (f : Take → Take) : TrafficEvents s (modTake s n t f) :=
  .of_latch rfl

theorem unnameIn_traffic (s : State) (ref : Option RecRef) : TrafficEvents s (unnameIn s ref) := by
  cases ref with
  | none => exact .refl s
  | some f => exact modSlot_traffic s _ _

theorem returnRecord_traffic (s : State) (r : Rec) : TrafficEvents s (returnRecord s r) :=
  unnameIn_traffic { s with freeCount := s.freeCount + 1 } r.ref

theorem returnRecords_traffic (s : State) (rs : List Rec) : TrafficEvents s (returnRecords s rs) :=
  foldl_keeps TrafficEvents .refl .trans _ returnRecord_traffic rs s

theorem finishCut_traffic (s : State) (c : CircuitNo) (r : Rec) : TrafficEvents s (finishCut s c r) :=
  (select_only _ c).traffic.after ((returnRecord_traffic _ r).after (modSender_only s c _).traffic)

theorem finishDelivery_traffic (s : State) (c : CircuitNo) (r : Rec) : TrafficEvents s (finishDelivery s c r) :=
  (select_only _ c).traffic.after ((returnRecord_traffic _ r).after (modSender_only s c _).traffic)

theorem handBackCurrent_traffic (s : State) (c : CircuitNo) (r : Rec) (f : RecRef) :
    TrafficEvents s (handBackCurrent s c r f) := by
  unfold handBackCurrent
  split
  · exact returnRecord_traffic s r
  · exact (modQueue_only s c _).traffic

theorem handBack_traffic (s : State) (c : CircuitNo) (r : Rec) : TrafficEvents s (handBack s c r) := by
  unfold handBack
  split
  · exact returnRecord_traffic s r
  · split
    · exact handBackCurrent_traffic s c r _
    · exact (handBackCurrent_traffic _ c _ _).after (modSlot_traffic s _ _)

theorem closeEnds_traffic (s : State) (c : CircuitNo) (r : Rec) (last : Phase) : TrafficEvents s (closeEnds s c r last) := by
  have handed := fun x : Rec => (handBack_traffic (modSender s c Sender.bare) c x).after (modSender_only s c _).traffic
  unfold closeEnds
  dsimp only
  split
  · exact (select_only _ c).traffic.after (handed _)
  · exact (enterPausing_only _ c).traffic.after (handed _)

theorem goOn_traffic (s : State) (c : CircuitNo) (r : Rec) (last : Phase) : TrafficEvents s (goOn s c r last) := by
  unfold goOn
  dsimp only
  split
  · split
    · exact closeEnds_traffic s c r last
    · exact (takeNext_only s c).traffic
  · split
    · exact (takeBreak_only _ c r).traffic.after (modSender_only s c _).traffic
    · exact (takeNext_only s c).traffic

theorem recordSent_traffic (s : State) (c : CircuitNo) (r : Rec) (last : Phase) : TrafficEvents s (recordSent s c r last) := by
  unfold recordSent
  dsimp only
  split
  · split
    · exact finishCut_traffic s c r
    · exact (takeNext_only s c).traffic
  · split
    · exact (startCut_only s c).traffic
    · split
      · exact (finishDelivery_traffic _ c r).after (modSender_only s c _).traffic
      · exact (goOn_traffic _ c r last).after (modSender_only s c _).traffic

theorem reportSent_traffic (s : State) (c : CircuitNo) : TrafficEvents s (reportSent s c) := by
  unfold reportSent
  dsimp only
  split
  · split
    · exact (select_only _ c).traffic.after (modSender_only s c _).traffic
    · exact (takeNext_only s c).traffic
  · split
    · exact (startCut_only s c).traffic
    · split
      · exact (select_only _ c).traffic.after ((reportLeaves_traffic _).after (modSender_only s c _).traffic)
      · exact (takeNext_only s c).traffic

theorem charSent_traffic (s : State) (c : CircuitNo) : TrafficEvents s (charSent s c) := by
  unfold charSent
  dsimp only
  split
  · exact .refl s
  · split
    · exact (modSender_only s c _).traffic
    · exact (reportSent_traffic _ c).after (modSender_only s c _).traffic
    · exact (recordSent_traffic _ c _ _).after (modSender_only s c _).traffic

/-! ### Making records -/

theorem addPending_traffic (s : State) (n : SlotNo) : TrafficEvents s (addPending s n) := modSlot_traffic s n _

theorem makeFree_traffic (s : State) (c : CircuitNo) (n : SlotNo) (r : Rec) : TrafficEvents s (makeFree s c n r) :=
  (joinQueue_only _ c r).traffic.after (addPending_traffic { s with freeCount := s.freeCount - 1 } n)

theorem miss_traffic (s : State) (c : CircuitNo) : TrafficEvents s (miss s c) :=
  (raise_traffic _ _ (by decide)).after (modSender_only s c _).traffic

theorem raiseMissed_traffic (s : State) (c : CircuitNo) (k : Option Key) : TrafficEvents s (raiseMissed s c k) := by
  unfold raiseMissed
  split
  · exact raise_traffic s _ (by decide)
  · exact .refl s

theorem displaceAt_traffic (s : State) (c : CircuitNo) (i : Nat) (old : Rec) (n : SlotNo) (r : Rec) :
    TrafficEvents s (displaceAt s c i old n r) :=
  (joinQueue_only _ c r).traffic.after ((addPending_traffic _ n).after ((raiseMissed_traffic _ c _).after
    ((modSender_only _ c _).traffic.after ((unnameIn_traffic _ _).after (modQueue_only s c _).traffic))))

theorem turnFor_traffic (n : SlotNo) (r : Rec) (s : State) (c : CircuitNo) : TrafficEvents s (turnFor n r s c) := by
  unfold turnFor
  split
  · exact makeFree_traffic s c n r
  · split
    · split
      · exact miss_traffic s c
      · split
        · exact displaceAt_traffic s c _ _ n r
        · exact miss_traffic s c
    · exact miss_traffic s c

theorem takenBeforeTurn_traffic (s : State) (i : Instr) : TrafficEvents s (takenBeforeTurn s i) := by
  unfold takenBeforeTurn
  split
  · split
    · exact charSent_traffic s _
    · exact .refl s
  · split
    · exact (motorReady_only _ s).traffic
    · exact .refl s
  · exact .refl s

theorem makeTurn_traffic (n : SlotNo) (r : Rec) (s : State) (c : CircuitNo) : TrafficEvents s (makeTurn n r s c) :=
  (turnFor_traffic n r _ c).after
    (foldl_keeps TrafficEvents .refl .trans _ takenBeforeTurn_traffic _ { s with meanwhile := s.meanwhile.tail })

theorem makeFor_traffic (s : State) (n : SlotNo) (t : TakeNo) (k : RecKind) (gap : List TakeNo) (but : List CircuitNo) :
    TrafficEvents s (makeFor s n t k gap but) := by
  unfold makeFor
  split
  · exact .refl s
  · exact foldl_keeps TrafficEvents .refl .trans _ (makeTurn_traffic n _) _ s

/-! ### The store -/

theorem raiseTakeCut_traffic (s : State) (n : SlotNo) (t : TakeNo) : TrafficEvents s (raiseTakeCut s n t) := by
  unfold raiseTakeCut
  split
  · exact raise_traffic s _ (by decide)
  · exact .refl s

theorem writeChar_traffic (s : State) (n : SlotNo) (t : TakeNo) (h : House) : TrafficEvents s (writeChar s n t h) := by
  unfold writeChar
  dsimp only
  split
  · exact .refl s
  · split
    · split
      · split
        · exact modSlot_traffic s n _
        · exact (raiseTakeCut_traffic _ n t).after (modTake_traffic s n t _)
      · exact modTake_traffic s n t _
    · exact .refl s

theorem releaseTake_traffic (s : State) (n : SlotNo) (t : TakeNo) (k : RecKind) (gap : List TakeNo) :
    TrafficEvents s (releaseTake s n t k gap) := (makeFor_traffic _ n t k gap []).after (modTake_traffic s n t _)

theorem searchGate_traffic (fuel : Nat) (s : State) (n : SlotNo) : TrafficEvents s (searchGate fuel s n) := by
  induction fuel generalizing s with
  | zero => exact .refl s
  | succ fuel ih =>
    unfold searchGate
    split
    · exact .refl s
    · exact (ih _).after (releaseTake_traffic s n _ _ _)

theorem gateSearch_traffic (s : State) (n : SlotNo) : TrafficEvents s (gateSearch s n) := searchGate_traffic 12 s n

theorem expireWait_traffic (s : State) (n : SlotNo) (m : TakeNo) : TrafficEvents s (expireWait s n m) := by
  have released := fun gone u => foldl_keeps TrafficEvents .refl .trans
    (fun u t => releaseTake u n t .new (gapNotice gone t)) (fun u t => releaseTake_traffic u n t _ _)
    (waitingUpTo s.slots[n] m) u
  unfold expireWait
  dsimp only
  split
  · exact (raise_traffic _ _ (by decide)).after ((gateSearch_traffic _ n).after ((released _ _).after (modSlot_traffic s n _)))
  · exact (gateSearch_traffic _ n).after ((released _ _).after (modSlot_traffic s n _))

theorem releaseLate_traffic (s : State) (n : SlotNo) (t : TakeNo) : TrafficEvents s (releaseLate s n t) :=
  (releaseTake_traffic _ n t _ _).after (modSlot_traffic s n _)

theorem gate_traffic (s : State) (n : SlotNo) (t : TakeNo) : TrafficEvents s (gate s n t) := by
  unfold gate
  dsimp only
  split
  · exact (gateSearch_traffic _ n).after (releaseLate_traffic s n t)
  · split
    · exact (gateSearch_traffic _ n).after (releaseTake_traffic s n t _ _)
    · split
      · exact (expireWait_traffic _ n t).after (modTake_traffic s n t _)
      · exact modTake_traffic s n t _

theorem detachCarried_traffic (p : Rec → Bool) (line : CutLine) (s : State) (c : CircuitNo) :
    TrafficEvents s (detachCarried p line s c) := by
  unfold detachCarried
  split
  · split
    · exact (unnameIn_traffic _ _).after (modSender_only s c _).traffic
    · exact .refl s
  · exact .refl s

theorem pullRecords_traffic (p : Rec → Bool) (line : CutLine) (s : State) : TrafficEvents s (pullRecords p line s) := by
  refine foldl_keeps TrafficEvents .refl .trans _ (fun u c => ?_) _ s
  refine (detachCarried_traffic p line _ c).after ((returnRecords_traffic _ _).after ?_)
  exact .of_latch rfl

theorem moveReaders_traffic (s : State) (n : SlotNo) (t : TakeNo) : TrafficEvents s (moveReaders s n t) := .of_latch rfl

theorem rewriteQueued_traffic (s : State) (n : SlotNo) (t : TakeNo) : TrafficEvents s (rewriteQueued s n t) :=
  .of_latch rfl

theorem replaceText_traffic (s : State) (n : SlotNo) (t : TakeNo) : TrafficEvents s (replaceText s n t) :=
  (rewriteQueued_traffic _ n t).after ((modSlot_traffic _ n _).after ((moveReaders_traffic _ n t).after
    ((modSlot_traffic _ n _).after (pullRecords_traffic _ _ s))))

theorem storeSubstitute_traffic (s : State) (n : SlotNo) (t : TakeNo) : TrafficEvents s (storeSubstitute s n t) := by
  have replaced := replaceText_traffic s n t
  unfold storeSubstitute
  dsimp only
  split
  · exact replaced
  · split
    · exact (makeFor_traffic _ n t _ _ _).after ((modTake_traffic _ n t _).after replaced)
    · exact (gate_traffic _ n t).after replaced

theorem endCut_traffic (s : State) (n : SlotNo) (t : TakeNo) : TrafficEvents s (endCut s n t) := by
  unfold endCut
  dsimp only
  split
  · exact .refl s
  · split
    · exact .refl s
    · exact (raiseTakeCut_traffic _ n t).after (modTake_traffic s n t _)

theorem takeEnds_traffic (s : State) (n : SlotNo) (t : TakeNo) (cut : Bool) : TrafficEvents s (takeEnds s n t cut) := by
  have ended : TrafficEvents s (if cut then endCut s n t else s) := by
    split
    · exact endCut_traffic s n t
    · exact .refl s
  have moved : TrafficEvents s
      (slotToFront (modTake (if cut then endCut s n t else s) n t fun x => { x with fillingLine := none }) n) :=
    TrafficEvents.after (.of_latch rfl) ended
  unfold takeEnds
  dsimp only
  split
  · exact .refl s
  · split
    · exact (gate_traffic _ n t).after moved
    · exact (storeSubstitute_traffic _ n t).after moved

/-! ### Messages and framers -/

theorem dropMessage_traffic (s : State) : TrafficEvents s (dropMessage s) := by
  unfold dropMessage
  split
  · exact .of_latch rfl
  · exact TrafficEvents.after (.of_latch rfl) (placeReply_traffic s _)

theorem passOn_traffic (s : State) (l : LineNo) (h : House) : TrafficEvents s (passOn s l h) := by
  unfold passOn
  dsimp only
  split
  · split
    · exact writeChar_traffic s _ _ h
    · exact .refl s
  · split
    · exact .of_latch rfl
    · split
      · exact .refl s
      · exact .of_latch rfl
  · exact .refl s

theorem passSlashes_traffic (s : State) (l : LineNo) (k : Nat) : TrafficEvents s (passSlashes s l k) := by
  induction k generalizing s with
  | zero => exact .refl s
  | succ k ih => exact (ih _).after (passOn_traffic s l _)

theorem endMessageCut_traffic (s : State) (l : LineNo) : TrafficEvents s (endMessageCut s l) := by
  unfold endMessageCut
  dsimp only
  split
  · split
    · exact (takeEnds_traffic _ _ _ _).after (passSlashes_traffic s l _)
    · exact passSlashes_traffic s l _
  · exact (dropMessage_traffic _).after (passSlashes_traffic s l _)
  · split
    · exact .refl s
    · exact dropMessage_traffic s
  · exact .refl s

theorem headerFault_traffic (s : State) (l : LineNo) (b : Bool) : TrafficEvents s (headerFault s l b) := by
  have raised : TrafficEvents s (raise s .headerFault (.line l)) := raise_traffic s _ (by decide)
  unfold headerFault
  split
  · exact TrafficEvents.after (.of_latch rfl) raised
  · exact TrafficEvents.after (.of_latch rfl) ((dropMessage_traffic _).after raised)

end Sys2Proof.Machine
/-! ## A take that ends

What a take stands at once it has ended (R71): the gate and the substitute store it, with the version it ended with as its
current one. Deliveries may change a take only in its superseded version, so each fact is followed through them by `TakeIs`. -/

namespace Sys2Proof.Machine

open Sys2Proof

/-- Take `t` of slot `n` is present, and satisfies `P`. -/
def TakeIs (n : SlotNo) (t : TakeNo) (P : Take → Prop) (s : State) : Prop := ∃ k, takeAt s n t = some k ∧ P k

/-- The take is filled no more, and `v` is the version it has come to. -/
structure EndedWith (v : Version) (k : Take) : Prop where
  fillingLine : k.fillingLine = none
  replacement : k.replacement = none
  current : k.current = v

/-- The take is stored (R60), with `v` as its current version. -/
structure StoredWith (v : Version) (k : Take) : Prop extends EndedWith v k where
  state : k.state = .released ∨ k.state = .waiting

/-- The take is filled no more, and `v` is to replace its current version (R78). -/
structure ReplacedBy (v : Version) (k : Take) : Prop where
  fillingLine : k.fillingLine = none
  replacement : ∃ c, k.replacement = some (v, c)

/-- What `P` says does not depend on the superseded version. -/
def BlindToSuperseded (P : Take → Prop) : Prop := ∀ k y, P k → P { k with superseded := y }

theorem EndedWith.blind (v : Version) : BlindToSuperseded (EndedWith v) := fun _ _ h => { h with }

theorem StoredWith.blind (v : Version) : BlindToSuperseded (StoredWith v) := fun _ _ h => { h with }

theorem ReplacedBy.blind (v : Version) : BlindToSuperseded (ReplacedBy v) := fun _ _ h => { h with }

/-! ### Takes under the named updates -/

theorem takeAt_of_slots {s t : State} (h : t.slots = s.slots) (n : SlotNo) (j : TakeNo) : takeAt t n j = takeAt s n j := by
  simp only [takeAt, h]

theorem takeAt_modSlot (s : State) (n : SlotNo) (f : Slot → Slot) (t : TakeNo) :
    takeAt (modSlot s n f) n t = (f s.slots[n]).takes[t] := by
  show (modAt s.slots n f)[n].takes[t] = _
  rw [modAt_same]

theorem takeAt_modTake (s : State) (n : SlotNo) (j : TakeNo) (f : Take → Take) (t : TakeNo) :
    takeAt (modTake s n j f) n t = if t = j then (takeAt s n t).map f else takeAt s n t := by
  rw [modTake, takeAt_modSlot]
  exact modAt_get _ j t _

theorem takeAt_modTake_same (s : State) (n : SlotNo) (t : TakeNo) (f : Take → Take) :
    takeAt (modTake s n t f) n t = (takeAt s n t).map f := by rw [takeAt_modTake, if_pos rfl]

/-- A change to a take carries what holds of it to what holds after. -/
theorem TakeIs.modTake {n : SlotNo} {t : TakeNo} {P Q : Take → Prop} {s : State} (h : TakeIs n t P s) {f : Take → Take}
    (g : ∀ k, P k → Q (f k)) : TakeIs n t Q (modTake s n t f) := by
  obtain ⟨k, hk, hP⟩ := h
  exact ⟨f k, by rw [takeAt_modTake_same, hk]; rfl, g k hP⟩

theorem TakeIs.of_slots {n : SlotNo} {t : TakeNo} {P : Take → Prop} {s u : State} (h : TakeIs n t P s)
    (e : u.slots = s.slots) : TakeIs n t P u := by
  obtain ⟨k, hk, hP⟩ := h
  exact ⟨k, (takeAt_of_slots e n t).trans hk, hP⟩

theorem TakeIs.imp {n : SlotNo} {t : TakeNo} {P Q : Take → Prop} {s : State} (h : TakeIs n t P s) (g : ∀ k, P k → Q k) :
    TakeIs n t Q s := by
  obtain ⟨k, hk, hP⟩ := h
  exact ⟨k, hk, g k hP⟩

/-- Slots that differ by deliveries alone have the same takes, but for their superseded versions. -/
theorem slotCore_take {x y : Slot} (h : slotCore y = slotCore x) (t : TakeNo) {k : Take} (hk : x.takes[t] = some k) :
    ∃ z, y.takes[t] = some { k with superseded := z } := by
  have e : (slotCore y).takes[t] = (slotCore x).takes[t] := by rw [h]
  simp only [slotCore, mapAll_get, hk, Option.map_some, Option.map_eq_some_iff] at e
  obtain ⟨k', hk', e⟩ := e
  refine ⟨k'.superseded, hk'.trans (congrArg some ?_)⟩
  cases k'
  cases k
  simp only [Take.mk.injEq] at e ⊢
  simpa using e

theorem TakeIs.delivery {n : SlotNo} {t : TakeNo} {P : Take → Prop} {s u : State} (h : TakeIs n t P s)
    (b : BlindToSuperseded P) (d : DeliveryOnly s u) : TakeIs n t P u := by
  obtain ⟨k, hk, hP⟩ := h
  obtain ⟨z, hz⟩ := slotCore_take (d.stories n) t hk
  exact ⟨_, hz, b k z hP⟩

/-! ### The order gate -/

/-- R77: a take that is released stands stored. -/
theorem releaseTake_stores {n : SlotNo} {t : TakeNo} {v : Version} {s : State} (h : TakeIs n t (EndedWith v) s) (k : RecKind)
    (gap : List TakeNo) : TakeIs n t (StoredWith v) (releaseTake s n t k gap) := by
  refine TakeIs.delivery ?_ (StoredWith.blind v) (makeFor_delivery _ n t k gap [])
  exact h.modTake fun _ e => ⟨⟨e.fillingLine, e.replacement, e.current⟩, Or.inl rfl⟩

/-- A release, of this take or of another, leaves a stored take stored. -/
theorem releaseTake_keepsStored {n : SlotNo} {t : TakeNo} {v : Version} {s : State} (h : TakeIs n t (StoredWith v) s)
    (j : TakeNo) (k : RecKind) (gap : List TakeNo) : TakeIs n t (StoredWith v) (releaseTake s n j k gap) := by
  by_cases e : j = t
  · subst e
    exact releaseTake_stores (h.imp fun _ => StoredWith.toEndedWith) k gap
  · refine TakeIs.delivery ?_ (StoredWith.blind v) (makeFor_delivery _ n j k gap [])
    obtain ⟨x, hx, hs⟩ := h
    exact ⟨x, by rw [takeAt_modTake, if_neg (Ne.symm e), hx], hs⟩

theorem searchGate_keepsStored {n : SlotNo} {t : TakeNo} {v : Version} (fuel : Nat) {s : State}
    (h : TakeIs n t (StoredWith v) s) : TakeIs n t (StoredWith v) (searchGate fuel s n) := by
  induction fuel generalizing s with
  | zero => exact h
  | succ fuel ih =>
    unfold searchGate
    split
    · exact h
    · exact ih (releaseTake_keepsStored h _ _ _)

theorem gateSearch_keepsStored {n : SlotNo} {t : TakeNo} {v : Version} {s : State} (h : TakeIs n t (StoredWith v) s) :
    TakeIs n t (StoredWith v) (gateSearch s n) := searchGate_keepsStored 12 h

theorem releases_keepStored {n : SlotNo} {t : TakeNo} {v : Version} (gone due : List TakeNo) {s : State}
    (h : TakeIs n t (StoredWith v) s) :
    TakeIs n t (StoredWith v) (due.foldl (fun u j => releaseTake u n j .new (gapNotice gone j)) s) := by
  induction due generalizing s with
  | nil => exact h
  | cons j due ih => exact ih (releaseTake_keepsStored h j _ _)

/-- R74: an expiry of a wait timer of the story leaves a stored take stored. -/
theorem expireWait_keepsStored {n : SlotNo} {t : TakeNo} {v : Version} {s : State} (h : TakeIs n t (StoredWith v) s)
    (m : TakeNo) : TakeIs n t (StoredWith v) (expireWait s n m) := by
  have passed : TakeIs n t (StoredWith v)
      (modSlot s n fun x => { x with passed := unionOf x.passed (setOf (passedBy s.slots[n] m)) }) := by
    obtain ⟨k, hk, hs⟩ := h
    exact ⟨k, by rw [takeAt_modSlot]; exact hk, hs⟩
  have searched := gateSearch_keepsStored (releases_keepStored (passedBy s.slots[n] m) (waitingUpTo s.slots[n] m) passed)
  unfold expireWait
  dsimp only
  split
  · exact searched.of_slots (raise_report _ _ _).slots
  · exact searched

/-- R75. -/
theorem releaseLate_stores {n : SlotNo} {t : TakeNo} {v : Version} {s : State} (h : TakeIs n t (EndedWith v) s) :
    TakeIs n t (StoredWith v) (releaseLate s n t) := by
  refine releaseTake_stores ?_ .late []
  obtain ⟨k, hk, e⟩ := h
  refine ⟨{ k with late := true }, ?_, ⟨e.fillingLine, e.replacement, e.current⟩⟩
  rw [takeAt_modSlot, modAt_same]
  exact congrArg (Option.map _) hk

/-- R72, R73: the gate stores the take it decides, released or waiting. -/
theorem gate_stores {n : SlotNo} {t : TakeNo} {v : Version} {s : State} (h : TakeIs n t (EndedWith v) s) :
    TakeIs n t (StoredWith v) (gate s n t) := by
  unfold gate
  dsimp only
  split
  · exact gateSearch_keepsStored (releaseLate_stores h)
  · split
    · exact gateSearch_keepsStored (releaseTake_stores h _ _)
    · have waits : TakeIs n t (StoredWith v)
          (modTake s n t fun k => { k with state := .waiting, waitTimer := some s.takeWait }) :=
        h.modTake fun _ e => ⟨⟨e.fillingLine, e.replacement, e.current⟩, Or.inr rfl⟩
      split
      · exact expireWait_keepsStored waits t
      · exact waits

/-! ### Substitutes -/

theorem slotCore_freeSuperseded (x : Slot) (t : TakeNo) : slotCore (freeSuperseded x t) = slotCore x := by
  unfold freeSuperseded
  split
  · rfl
  · next k hk =>
    split
    · rfl
    · have takes : mapAll (put x.takes t (some { k with superseded := none })) (Option.map fun k => { k with superseded := none }) =
          mapAll x.takes (Option.map fun k => { k with superseded := none }) := by
        apply array_ext
        intro j
        simp only [mapAll_get]
        by_cases e : j = t
        · subst e; rw [put_same, hk]; rfl
        · rw [put_other _ _ e]
      simp only [slotCore, takes]

theorem dropSuperseded_delivery (s : State) (n : SlotNo) (t : TakeNo) : DeliveryOnly s (dropSuperseded s n t) :=
  (modSlot_delivery _ n _ fun x => slotCore_freeSuperseded x t).after (pullRecords_delivery _ _ s)

/-- R78: the replacement becomes the take's current version. -/
theorem replaceText_ends {n : SlotNo} {t : TakeNo} {v : Version} {s : State} (h : TakeIs n t (ReplacedBy v) s) :
    TakeIs n t (EndedWith v) (replaceText s n t) := by
  have moved : TakeIs n t (ReplacedBy v) (moveReaders (dropSuperseded s n t) n t) :=
    h.delivery (ReplacedBy.blind v) ((moveReaders_delivery _ n t).after (dropSuperseded_delivery s n t))
  have replaced : ∀ readers, TakeIs n t (EndedWith v)
      (modSlot (moveReaders (dropSuperseded s n t) n t) n (replaceVersion readers t)) := by
    intro readers
    obtain ⟨k, hk, none, c, hc⟩ := moved
    unfold TakeIs
    rw [takeAt_modSlot]
    unfold takeAt at hk
    simp only [replaceVersion, hk, hc, put_same]
    exact ⟨_, rfl, ⟨none, rfl, rfl⟩⟩
  exact (replaced _).delivery (EndedWith.blind v) (rewriteQueued_delivery _ n t)

/-- R78, R81: a substitute that has ended is stored. -/
theorem storeSubstitute_stores {n : SlotNo} {t : TakeNo} {v : Version} {s : State} (h : TakeIs n t (ReplacedBy v) s) :
    TakeIs n t (StoredWith v) (storeSubstitute s n t) := by
  have ended := replaceText_ends h
  have ⟨k, hk, _⟩ := ended
  unfold storeSubstitute
  simp only [hk]
  split
  · refine TakeIs.delivery ?_ (StoredWith.blind v) (makeFor_delivery _ n t _ _ _)
    exact ended.modTake fun _ e => ⟨⟨e.fillingLine, e.replacement, e.current⟩, Or.inl rfl⟩
  · exact gate_stores ended

/-! ### The end of a take, cut (R71) -/

@[simp] theorem fillingVersion_withFilling (k : Take) (v : Version) : fillingVersion (withFilling k v) = v := by
  unfold withFilling
  split
  · rfl
  · next h => simp only [fillingVersion, h]

@[simp] theorem withFilling_fillingVersion (k : Take) : withFilling k (fillingVersion k) = k := by
  unfold withFilling fillingVersion
  split
  · next h => rw [← h]
  · rfl

@[simp] theorem withFilling_state (k : Take) (v : Version) : (withFilling k v).state = k.state := by
  unfold withFilling
  split <;> rfl

/-- R71 step 1: the cut flag of the version being filled is set. -/
theorem takeAt_endCut {s : State} {n : SlotNo} {t : TakeNo} {k : Take} (h : takeAt s n t = some k) :
    takeAt (endCut s n t) n t = some (withFilling k { fillingVersion k with cut := true }) := by
  simp only [endCut, h]
  split
  · next cut =>
    rw [h, ← cut, withFilling_fillingVersion]
  · rw [takeAt_of_slots (raiseTakeCut_report _ n t).slots, takeAt_modTake_same, h]
    rfl

/-- R71: a take that ends cut is stored, with the text it had. -/
theorem takeEnds_cut_stores {s : State} {n : SlotNo} {t : TakeNo} {k : Take} (h : takeAt s n t = some k) :
    TakeIs n t (StoredWith { fillingVersion k with cut := true }) (takeEnds s n t true) := by
  have moved : takeAt (slotToFront (modTake (endCut s n t) n t fun x => { x with fillingLine := none }) n) n t =
      some { withFilling k { fillingVersion k with cut := true } with fillingLine := none } := by
    rw [takeAt_of_slots (slotToFront_slots _ n), takeAt_modTake_same, takeAt_endCut h]
    rfl
  simp only [takeEnds, h, if_true]
  cases e : k.replacement with
  | none =>
    refine gate_stores ⟨_, moved, ?_⟩
    simp only [withFilling, e]
    exact ⟨rfl, rfl, rfl⟩
  | some x =>
    refine storeSubstitute_stores ⟨_, moved, ?_⟩
    simp only [withFilling, e]
    exact ⟨rfl, x.2, rfl⟩

/-! ## The end of a message as at a break (R31, R33, R34) -/

/-! ### Held slashes of a story (R27, R69) -/

/-- A character for a take that is not FILLING is thrown away (R70). -/
theorem writeChar_idle {s : State} {n : SlotNo} {t : TakeNo} {k : Take} (h : takeAt s n t = some k) (hs : k.state ≠ .filling)
    (x : House) : writeChar s n t x = s := by
  simp only [writeChar, h, if_neg hs]

/-- R69: a character for which the last block has room joins the text. -/
theorem writeChar_room {s : State} {n : SlotNo} {t : TakeNo} {k : Take} (h : takeAt s n t = some k) (hs : k.state = .filling)
    (hr : 0 < (fillingVersion k).text.length % 64) (x : House) :
    takeAt (writeChar s n t x) n t =
      some (withFilling k { fillingVersion k with text := (fillingVersion k).text ++ [x] }) := by
  have room : ¬ (fillingVersion k).length % Config.blockSize = 0 := Nat.ne_of_gt hr
  simp only [writeChar, h, if_pos hs, if_neg room]
  rw [takeAt_modTake_same, h]
  rfl

/-- A character written leaves the take in its place. -/
theorem writeChar_present {s : State} {n : SlotNo} {t : TakeNo} {k : Take} (h : takeAt s n t = some k) (x : House) :
    ∃ k', takeAt (writeChar s n t x) n t = some k' := by
  simp only [writeChar, h]
  split
  · split
    · split
      · exact ⟨_, by rw [takeAt_modSlot]; exact put_same _ t _⟩
      · exact ⟨_, by rw [takeAt_of_slots (raiseTakeCut_report _ n t).slots, takeAt_modTake_same, h]; rfl⟩
    · exact ⟨_, by rw [takeAt_modTake_same, h]; rfl⟩
  · exact ⟨k, h⟩

/-- In COPY-BODY a character passed on is written to the take. -/
theorem passOn_copyBody {s : State} {l : LineNo} {n : SlotNo} {t : TakeNo} (hs : s.lines[l].framer.state = .copyBody)
    (hr : s.lines[l].framer.takeRef = some (n, t)) (x : House) : passOn s l x = writeChar s n t x := by
  simp only [passOn, hs, hr]

/-- R27, R69, R70: what `j` slashes written to a take that stood as `k` leave of it, as far as it is settled: the text is as
it was if there are none or the take is CUT-FILLING, and they join it if the take is FILLING and they have room in its last
block. -/
structure SlashesWritten (j : Nat) (k k' : Take) : Prop where
  kept : j = 0 ∨ k.state = .cutFilling → (fillingVersion k').text = (fillingVersion k).text
  joined : k.state = .filling → 0 < (fillingVersion k).text.length % 64 → (fillingVersion k).text.length % 64 + j ≤ 64 →
    (fillingVersion k').text = (fillingVersion k).text ++ List.replicate j houseSlash

theorem SlashesWritten.none (k : Take) : SlashesWritten 0 k k := ⟨fun _ => rfl, fun _ _ _ => (List.append_nil _).symm⟩

/-- A take that is not FILLING takes no slash. -/
theorem SlashesWritten.idle {j : Nat} {k k' : Take} (h : SlashesWritten j k k') (idle : k.state ≠ .filling) :
    SlashesWritten (j + 1) k k' :=
  ⟨fun e => h.kept (Or.inr (e.resolve_left (Nat.succ_ne_zero j))), fun e => absurd e idle⟩

/-- One slash that has room, and then the others. -/
theorem SlashesWritten.room {j : Nat} {k k' : Take} (filling : k.state = .filling)
    (h : SlashesWritten j (withFilling k { fillingVersion k with text := (fillingVersion k).text ++ [houseSlash] }) k') :
    SlashesWritten (j + 1) k k' := by
  refine ⟨fun e => by simp [filling] at e, fun _ some fits => ?_⟩
  have kept := h.kept
  have joined := h.joined
  simp only [withFilling_state, fillingVersion_withFilling, List.length_append, List.length_singleton] at kept joined
  cases j with
  | zero => exact kept (Or.inl rfl)
  | succ j =>
    rw [List.replicate_succ, List.append_cons]
    exact joined filling (by omega) (by omega)

/-- A FILLING take whose last block is full, or that has none: nothing is settled of its text. -/
theorem SlashesWritten.full {j : Nat} {k k' : Take} (filling : k.state = .filling)
    (full : ¬ 0 < (fillingVersion k).text.length % 64) : SlashesWritten (j + 1) k k' :=
  ⟨fun e => by simp [filling] at e, fun _ e => absurd e full⟩

/-- R27: the slashes passed on in COPY-BODY. -/
theorem passSlashes_copyBody {l : LineNo} {n : SlotNo} {t : TakeNo} (j : Nat) {s : State} {k : Take}
    (hs : s.lines[l].framer.state = .copyBody) (hr : s.lines[l].framer.takeRef = some (n, t)) (h : takeAt s n t = some k) :
    ∃ k', takeAt (passSlashes s l j) n t = some k' ∧ SlashesWritten j k k' := by
  induction j generalizing s k with
  | zero => exact ⟨k, h, .none k⟩
  | succ j ih =>
    have lines := (passOn_same s l houseSlash).lines
    have written := passOn_copyBody hs hr houseSlash
    have others := fun k₁ => ih (s := passOn s l houseSlash) (k := k₁) (by rw [lines]; exact hs) (by rw [lines]; exact hr)
    unfold passSlashes
    by_cases filling : k.state = .filling
    · by_cases room : 0 < (fillingVersion k).text.length % 64
      · obtain ⟨k', hk', rest⟩ := others _ (by rw [written]; exact writeChar_room h filling room houseSlash)
        exact ⟨k', hk', .room filling rest⟩
      · obtain ⟨k₁, hk₁⟩ := writeChar_present h houseSlash
        obtain ⟨k', hk', -⟩ := others k₁ (by rw [written]; exact hk₁)
        exact ⟨k', hk', .full filling room⟩
    · obtain ⟨k', hk', rest⟩ := others k (by rw [written, writeChar_idle h filling]; exact h)
      exact ⟨k', hk', rest.idle filling⟩

/-- Passing slashes on moves no slot in the recency list. -/
theorem passSlashes_recency {l : LineNo} {n : SlotNo} {t : TakeNo} (j : Nat) {s : State}
    (hs : s.lines[l].framer.state = .copyBody) (hr : s.lines[l].framer.takeRef = some (n, t)) :
    (passSlashes s l j).recency = s.recency := by
  induction j generalizing s with
  | zero => rfl
  | succ j ih =>
    have lines := (passOn_same s l houseSlash).lines
    unfold passSlashes
    rw [ih (by rw [lines]; exact hs) (by rw [lines]; exact hr), passOn_copyBody hs hr]
    exact (writeChar_story s n t _).recency

/-! ### Held slashes of a request line (R27, R162) -/

/-- Only the request line being collected has changed: the buffer's holder, the tag and the reports are as they were. -/
structure CollectedOnly (s t : State) : Prop where
  message : t = { s with mgmt := t.mgmt }
  holder : t.mgmt.holder = s.mgmt.holder
  tag : t.mgmt.tag = s.mgmt.tag
  reports : t.mgmt.reports = s.mgmt.reports

theorem CollectedOnly.after {s t u : State} (g : CollectedOnly t u) (h : CollectedOnly s t) : CollectedOnly s u where
  message := by rw [g.message, h.message]
  holder := g.holder.trans h.holder
  tag := g.tag.trans h.tag
  reports := g.reports.trans h.reports

theorem passOn_slash_collected {s : State} {l : LineNo} (hs : s.lines[l].framer.state = .manageBody) :
    CollectedOnly s (passOn s l houseSlash) := by
  have passed : passOn s l houseSlash = modMgmt s (collectChar houseSlash) := by
    simp only [passOn, hs]
    rfl
  have kept : ∀ m, (collectChar houseSlash m).holder = m.holder ∧ (collectChar houseSlash m).tag = m.tag ∧
      (collectChar houseSlash m).reports = m.reports := by
    intro m
    unfold collectChar
    split
    · exact ⟨rfl, rfl, rfl⟩
    · split <;> exact ⟨rfl, rfl, rfl⟩
  obtain ⟨holder, tag, reports⟩ := kept s.mgmt
  rw [passed]
  exact ⟨rfl, holder, tag, reports⟩

theorem passSlashes_collected {l : LineNo} (j : Nat) {s : State} (hs : s.lines[l].framer.state = .manageBody) :
    CollectedOnly s (passSlashes s l j) := by
  induction j generalizing s with
  | zero => exact ⟨rfl, rfl, rfl, rfl⟩
  | succ j ih =>
    exact (ih (by rw [(passOn_same s l houseSlash).lines]; exact hs)).after (passOn_slash_collected hs)

/-! ### A message dropped (R163) -/

theorem dropMessage_dropped (s : State) : Dropped (dropMessage s) := by
  unfold dropMessage
  split <;> exact ⟨rfl, rfl, rfl, rfl⟩

theorem dropMessage_slots (s : State) : (dropMessage s).slots = s.slots := by
  unfold dropMessage
  split
  · rfl
  · exact (placeReply_report s _).slots

theorem shortReply_eq (tag : Option Text) (l : LineNo) (w : String) : shortReply tag l (txt w) = shortReplyText tag l w := by
  have mark : txt " L" = [houseSpace, ch 'L'] := rfl
  have closing : closingLine = txt "//E" ++ [houseNL] := rfl
  cases tag <;> simp [shortReply, shortReplyText, replyHead, lineOf, lineTok, mark, closing]

/-- R172: a reply that finds room becomes the newest report. -/
theorem placeReply_reports {s : State} (h : s.mgmt.reports.length < 8) (t : Text) :
    (placeReply s t).mgmt.reports = s.mgmt.reports ++ [t] := by
  have room : reportRoom s = true := decide_eq_true h
  simp only [placeReply, room, if_true, pushReport]
  rw [(offer_only _ _).mgmt]
  rfl

theorem dropMessage_reports {s : State} {h : LineNo} (hh : s.mgmt.holder = some h) (hr : s.mgmt.reports.length < 8) :
    (dropMessage s).mgmt.reports = s.mgmt.reports ++ [shortReplyText s.mgmt.tag h "CUT"] := by
  simp only [dropMessage, hh]
  rw [← shortReply_eq]
  exact placeReply_reports hr _

/-! ### The three ends -/

/-- R33, R34: the framer is in the middle of no take and of no management message. -/
def NothingToEnd (f : Framer) : Prop :=
  f.state = .hunt ∨ f.state = .discard ∨ f.state = .broken ∨ (f.state = .header ∧ f.kind = .copy)

/-- R33, R34: the framer is in the middle of a management message. -/
def InManagement (f : Framer) : Prop := f.state = .manageBody ∨ (f.state = .header ∧ f.kind = .management)

theorem endMessageCut_idle {s : State} {l : LineNo} (h : NothingToEnd s.lines[l].framer) : endMessageCut s l = s := by
  unfold endMessageCut
  obtain h | h | h | ⟨h, hk⟩ := h
  · simp only [h]
  · simp only [h]
  · simp only [h]
  · simp only [h, hk]

/-- R33, R34: a take being filled ends cut and is stored, and its slot comes to the front. -/
theorem endMessageCut_copyBody {s : State} {l : LineNo} {n : SlotNo} {t : TakeNo} {k : Take}
    (hs : s.lines[l].framer.state = .copyBody) (hr : s.lines[l].framer.takeRef = some (n, t)) (hk : takeAt s n t = some k) :
    StoredCut n t s.lines[l].framer k (endMessageCut s l) ∧
      (endMessageCut s l).recency = n :: s.recency.filter (fun m => m ≠ n) := by
  obtain ⟨k₁, hk₁, written⟩ := passSlashes_copyBody s.lines[l].framer.held.val hs hr hk
  have ends : endMessageCut s l = takeEnds (passSlashes s l s.lines[l].framer.held.val) n t true := by
    simp only [endMessageCut, hs, hr]
  rw [ends]
  constructor
  · obtain ⟨k', hk', stored⟩ := takeEnds_cut_stores hk₁
    refine ⟨k', hk', stored.state, stored.fillingLine, stored.replacement, by rw [stored.current], ?_⟩
    rintro v rfl
    rw [stored.current]
    exact ⟨fun e => written.kept (e.imp_left fun e => by rw [e]; rfl), written.joined⟩
  · obtain ⟨-, -, -, -, recency⟩ := takeEnds_frame (passSlashes s l s.lines[l].framer.held.val) n t true
    rw [recency, hk₁, if_neg (Option.some_ne_none _), passSlashes_recency _ hs hr]
    rfl

/-- R33, R34, R163: a management message is dropped, and CUT is placed as a report if there is room. -/
theorem endMessageCut_management {s : State} {l : LineNo} (h : InManagement s.lines[l].framer) :
    Dropped (endMessageCut s l) ∧ (endMessageCut s l).slots = s.slots ∧
      ∀ m : LineNo, s.mgmt.holder = some m → s.mgmt.reports.length < 8 →
        (endMessageCut s l).mgmt.reports = s.mgmt.reports ++ [shortReplyText s.mgmt.tag m "CUT"] := by
  have drops : ∃ w, endMessageCut s l = dropMessage w ∧ CollectedOnly s w := by
    obtain h | ⟨h, hk⟩ := h
    · exact ⟨passSlashes s l s.lines[l].framer.held.val, by simp only [endMessageCut, h], passSlashes_collected _ h⟩
    · exact ⟨s, by simp only [endMessageCut, h, hk], rfl, rfl, rfl, rfl⟩
  obtain ⟨w, ends, collected⟩ := drops
  rw [ends]
  refine ⟨dropMessage_dropped w, (dropMessage_slots w).trans (by rw [collected.message]), fun m hm hr => ?_⟩
  rw [← collected.reports, ← collected.tag]
  exact dropMessage_reports (collected.holder.trans hm) (by rw [collected.reports]; exact hr)

end Sys2Proof.Machine
/-! ## Agency lines: the framer that is handed SUB -/

namespace Sys2Proof.Machine

open Sys2Proof

/-! ### One line under the named updates -/

theorem modLine_line (s : State) (l : LineNo) (f : Line → Line) : (modLine s l f).lines[l] = f s.lines[l] :=
  modAt_same _ l f

theorem modLine_modLine (s : State) (l : LineNo) (f g : Line → Line) :
    modLine (modLine s l f) l g = modLine s l fun x => g (f x) := by
  simp only [modLine, modAt_modAt]

/-- Updates that agree on the line as it stands are one update. -/
theorem modLine_congr {s : State} {l : LineNo} {f g : Line → Line} (h : f s.lines[l] = g s.lines[l]) :
    modLine s l f = modLine s l g := by
  simp only [modLine, modAt, h]

/-- A change in the lines apart, only deliveries, reports and the latch have changed. -/
theorem DeliveryOnly.of_lines {s u : State} (tables : TablesKept s u) (recency : u.recency = s.recency)
    (message : { u.mgmt with reports := s.mgmt.reports } = s.mgmt)
    (stories : ∀ n : SlotNo, slotCore u.slots[n] = slotCore s.slots[n]) : DeliveryOnly { s with lines := u.lines } u where
  tables := { tables with lineDescs := fun _ => ⟨rfl, rfl⟩ }
  lines := rfl
  recency := recency
  message := message
  stories := stories

/-! ### What the framer leaves of a line -/

/-- A line without what its framer changes: all but the framer and the counters, and of these the framing counter. -/
def besidesFramer (x : Line) : Line :=
  { x with framer := Framer.reset, counters := { LineCounters.zero with framing := x.counters.framing } }

theorem modFramer_besides (s : State) (l : LineNo) (f : Framer → Framer) :
    besidesFramer (modFramer s l f).lines[l] = besidesFramer s.lines[l] :=
  modAt_keeps _ l l _ besidesFramer fun _ => rfl

theorem modLineCounters_besides (s : State) (l : LineNo) (f : LineCounters → LineCounters)
    (h : ∀ c, (f c).framing = c.framing) :
    besidesFramer (modLineCounters s l f).lines[l] = besidesFramer s.lines[l] :=
  modAt_keeps _ l l _ besidesFramer fun x => by simp only [besidesFramer, h]

theorem headerFault_besides (s : State) (l : LineNo) (b : Bool) :
    besidesFramer (headerFault s l b).lines[l] = besidesFramer s.lines[l] := by
  have raised := (raise_report s .headerFault (.line l)).delivery.lines
  unfold headerFault
  split
  · unfold copyHeaderFault toDiscard
    rw [modFramer_besides, modLineCounters_besides _ _ _ (by intro c; rfl), raised]
  · unfold managementHeaderFault toDiscard
    rw [modFramer_besides, (dropMessage_same _).lines, raised]

/-! ### SUB in each state of the framer (R9, R18, R20, R26, R27) -/

/-- R18: in HUNT it is stray, with the slashes held. -/
theorem huntChar_SUB (s : State) (l : LineNo) :
    huntChar s l houseSUB =
      countStray (modFramer s l fun f => { f with held := 0 }) l (s.lines[l].framer.held.val + 1) := by
  have slash : houseSUB ≠ houseSlash := by decide
  have c : houseSUB ≠ ch 'C' := by decide
  have m : houseSUB ≠ ch 'M' := by decide
  simp only [huntChar, if_neg slash, c, m, and_false, if_false]

/-- R20, R23: in HEADER it is collected while there is room, and a header too long is a fault. -/
theorem headerChar_SUB (s : State) (l : LineNo) :
    headerChar s l houseSUB =
      if s.lines[l].framer.header.length < 64 then modFramer s l fun f => { f with header := f.header ++ [houseSUB] }
      else headerFault s l false := by
  have nl : houseSUB ≠ houseNL := by decide
  have text : isFunction houseSUB = false := by decide
  simp only [headerChar, if_neg nl, text]
  rfl

/-- R26, R27: in a body it is text, and the slashes held before it with it. -/
theorem bodyChar_SUB (s : State) (l : LineNo) :
    bodyChar id s l houseSUB =
      modFramer (passOn (passSlashes s l s.lines[l].framer.held.val) l houseSUB) l
        fun f => { f with held := 0, lineStart := false } := by
  have slash : houseSUB ≠ houseSlash := by decide
  have text : isFunction houseSUB = false := by decide
  unfold bodyChar
  dsimp only
  split
  · next none =>
    have held : (passOn s l houseSUB).lines[l].framer.held = 0 := by rw [(passOn_same s l _).lines]; exact none
    rw [if_neg fun h => slash h.1, none]
    refine modLine_congr ?_
    simp only [text, ← held]
    rfl
  · split
    · next one => rw [one]; rfl
    · next none one =>
      have two : s.lines[l].framer.held = 2 := by omega
      rw [two]
      rfl

/-- The framer's own line, but for the framer and its counters, stands as it stood. -/
theorem framerChar_SUB_besides (s : State) (l : LineNo) :
    besidesFramer (framerChar id s l houseSUB).lines[l] = besidesFramer s.lines[l] := by
  have body : besidesFramer (bodyChar id s l houseSUB).lines[l] = besidesFramer s.lines[l] := by
    rw [bodyChar_SUB, modFramer_besides, (passOn_same _ l _).lines, (passSlashes_same s l _).lines]
  unfold framerChar
  split
  · rw [huntChar_SUB]
    exact (modLineCounters_besides _ l _ (by intro c; rfl)).trans (modFramer_besides s l _)
  · rw [headerChar_SUB]
    split
    · exact modFramer_besides s l _
    · exact headerFault_besides s l false
  · exact body
  · exact body
  · exact body
  · rfl

/-- SUB raises no event but those of the traffic. -/
theorem framerChar_SUB_traffic (s : State) (l : LineNo) : TrafficEvents s (framerChar id s l houseSUB) := by
  have body : TrafficEvents s (bodyChar id s l houseSUB) := by
    rw [bodyChar_SUB]
    exact TrafficEvents.after (.of_latch rfl) ((passOn_traffic _ l _).after (passSlashes_traffic s l _))
  unfold framerChar
  split
  · rw [huntChar_SUB]
    exact .of_latch rfl
  · rw [headerChar_SUB]
    split
    · exact .of_latch rfl
    · exact headerFault_traffic s l false
  · exact body
  · exact body
  · exact body
  · exact .refl s

/-- R18. -/
theorem framerChar_SUB_hunt {s : State} {l : LineNo} (h : s.lines[l].framer.state = .hunt) :
    (framerChar id s l houseSUB).lines[l].framer = { s.lines[l].framer with held := 0 } ∧
      (framerChar id s l houseSUB).lines[l].counters.stray =
        min (s.lines[l].counters.stray + (s.lines[l].framer.held.val + 1)) 65535 := by
  have char : framerChar id s l houseSUB = huntChar s l houseSUB := by simp only [framerChar, h]
  rw [char, huntChar_SUB]
  unfold countStray modLineCounters modFramer
  rw [modLine_modLine, modLine_line]
  exact ⟨rfl, rfl⟩

/-- R20. -/
theorem framerChar_SUB_header {s : State} {l : LineNo} (h : s.lines[l].framer.state = .header)
    (room : s.lines[l].framer.header.length < 64) :
    (framerChar id s l houseSUB).lines[l].framer =
      { s.lines[l].framer with header := s.lines[l].framer.header ++ [26] } := by
  have char : framerChar id s l houseSUB = headerChar s l houseSUB := by simp only [framerChar, h]
  rw [char, headerChar_SUB, if_pos room]
  unfold modFramer
  rw [modLine_line]
  rfl

/-- R26, R27. -/
theorem framerChar_SUB_body {s : State} {l : LineNo}
    (h : s.lines[l].framer.state = .copyBody ∨ s.lines[l].framer.state = .manageBody ∨
      s.lines[l].framer.state = .discard) :
    (framerChar id s l houseSUB).lines[l].framer = { s.lines[l].framer with held := 0, lineStart := false } := by
  have char : framerChar id s l houseSUB = bodyChar id s l houseSUB := by
    obtain h | h | h := h <;> simp only [framerChar, h]
  rw [char, bodyChar_SUB]
  unfold modFramer
  rw [modLine_line, (passOn_same _ l _).lines, (passSlashes_same s l _).lines]

end Sys2Proof.Machine
/-! ## Agency lines: the settled statements -/

namespace Sys2Proof.Machine

open Sys2Proof

/-! ### Transitions and false starts -/

/-- Settles O5: each clause is the event's one update of the line, the reset input being high. -/
theorem transitionsMoveTheReceiver : Obligations.TransitionsMoveTheReceiver := by
  unfold Obligations.TransitionsMoveTheReceiver
  intro s l high
  refine ⟨?_, ?_, fun start => ?_⟩
  · simp only [exec, execMarkToSpaceTransition, high]
    rfl
  · simp only [exec, execSpaceToMarkTransition, high]
    rfl
  · simp only [exec, execFalseStart, runBareEvent, high, falseStart, start, if_true]
    rfl

/-! ### A character with its stop sample spacing -/

theorem runEvent_high {f : State → State} {s : State} (high : s.resetLow = false) : runEvent f s = .next (atOnce (f s)) := by
  simp only [runEvent, high]
  rfl

theorem runBareEvent_high {f : State → State} {s : State} (high : s.resetLow = false) : runBareEvent f s = .next (f s) := by
  simp only [runBareEvent, high]
  rfl

theorem canArrive_inService {x : Line} (h : canArrive x = true) : lineInService x = true := by
  simp only [canArrive, Bool.and_eq_true] at h
  exact h.1

theorem besidesFramer_eq {x y : Line} (h : besidesFramer x = besidesFramer y) :
    x.desc = y.desc ∧ x.outOfService = y.outOfService ∧ x.shift = y.shift ∧ x.silence = y.silence ∧
      x.counters.framing = y.counters.framing :=
  ⟨(congrArg Line.desc h :), (congrArg Line.outOfService h :), (congrArg Line.shift h :), (congrArg Line.silence h :),
    (congrArg (fun z => z.counters.framing) h :)⟩

/-- R12: what the silence timer of a line in service stands at once it has been reloaded. -/
theorem silenceLoad_inService {x : Line} (h : lineInService x = true) :
    (silenceLoad x).or x.silence = if 0 < x.desc.silenceLimit then some (x.desc.silenceLimit * 10) else x.silence := by
  by_cases limit : 0 < x.desc.silenceLimit <;> simp [silenceLoad, h, limit]

/-- R9, R10, R12: the line after a framing error, `y` being the line as the framer leaves it. -/
theorem badCharacter_line (s : State) (l : LineNo) (code : LineCode) {y : Line}
    (h : y = (framerChar id s l houseSUB).lines[l]) :
    (badCharacter s l code).lines[l] = { y with
      input := .spacing
      receiver :=
        { state := .hold
          breakWatch := if code = 0 then some (charTimeHalves y.desc.width y.desc.stop) else none
          markingInterval := none }
      silence := (silenceLoad y).or y.silence
      counters := { y.counters with framing := count y.counters.framing } } := by
  subst h
  unfold badCharacter reloadSilence modLineCounters
  dsimp only
  rw [modLine_line, modLine_line, (raise_report _ _ _).delivery.lines, modLine_line]
  rfl

/-- R9: a framing error raises FRAMING, and besides it SUB and the line do what they do. -/
theorem badCharacter_occurred (s : State) (l : LineNo) (code : LineCode) :
    Occurred .framing (.line l) s (badCharacter s l code) := by
  have handed : TrafficEvents s (modLineCounters (framerChar id s l houseSUB) l fun c => { c with framing := count c.framing }) :=
    TrafficEvents.after (.of_latch rfl) (framerChar_SUB_traffic s l)
  exact ((raise_occurred _ .framing (.line l)).since handed (by decide)).before (.of_latch rfl) (by decide)

/-- The event of a framing error leaves the store and the message as SUB leaves them. -/
theorem badCharacter_report (s : State) (l : LineNo) (code : LineCode) {w : State} (h : w = framerChar id s l houseSUB) :
    (badCharacter s l code).slots = w.slots ∧ (badCharacter s l code).recency = w.recency ∧
      { (badCharacter s l code).mgmt with reports := w.mgmt.reports } = w.mgmt := by
  have raised := raise_report (modLineCounters w l fun c => { c with framing := count c.framing }) .framing (.line l)
  subst h
  exact ⟨raised.slots, raised.delivery.recency, raised.delivery.message⟩

/-- Settles O6: the character is `badCharacter`, whose line and store are those that SUB leaves, and SUB is followed through
the framer's states. -/
theorem framingErrorIsCountedAndWatched : Obligations.FramingErrorIsCountedAndWatched := by
  unfold Obligations.FramingErrorIsCountedAndWatched
  intro s l v high arrives
  have inService := canArrive_inService arrives
  obtain ⟨desc, out, shift, silence, framing⟩ := besidesFramer_eq (framerChar_SUB_besides s l)
  have line := badCharacter_line s l (lineCode s.lines[l].desc.width v) rfl
  have load := silenceLoad_inService (x := (framerChar id s l houseSUB).lines[l])
    (by simpa only [lineInService, desc, out] using inService)
  rw [load, desc, silence, framing] at line
  refine ⟨badCharacter s l (lineCode s.lines[l].desc.width v), ?_, by rw [line]; rfl, by rw [line], by rw [line]; exact shift,
    by rw [line], by rw [line]; rfl, by rw [line], badCharacter_occurred s l _, badCharacter_only s l _, ?_, ?_,
    ?_, ?_⟩
  · simp only [exec, execCharacterArrives, runEvent_high high, characterArrives, arrives]
    rfl
  · intro w hw
    refine ⟨by rw [line, hw], by rw [line, hw], badCharacter_report s l _ hw⟩
  · intro hunt
    rw [line]
    exact framerChar_SUB_hunt hunt
  · intro header room
    rw [line]
    exact framerChar_SUB_header header room
  · intro body
    rw [line]
    dsimp only
    rw [framerChar_SUB_body body]
    exact ⟨rfl, rfl, rfl⟩

/-! ### Breaks and silence -/

/-- R10: the receiver has gone into break, and LINE_BREAK has been raised; the message has not ended yet. -/
def breakRaised (s : State) (l : LineNo) : State :=
  raise (modReceiver s l fun _ => { state := .brk, breakWatch := none, markingInterval := none }) .lineBreak (.line l)

theorem breakRaised_lines (s : State) (l : LineNo) : (breakRaised s l).lines =
    modAt s.lines l fun x => { x with receiver := { state := .brk, breakWatch := none, markingInterval := none } } :=
  (raise_report _ _ _).delivery.lines

theorem breakRaised_line (s : State) (l : LineNo) : (breakRaised s l).lines[l] =
    { s.lines[l] with receiver := { state := .brk, breakWatch := none, markingInterval := none } } := by
  rw [breakRaised_lines]
  exact modAt_same _ l _

theorem breakRaised_slots (s : State) (l : LineNo) : (breakRaised s l).slots = s.slots := (raise_report _ _ _).slots

theorem breakRaised_recency (s : State) (l : LineNo) : (breakRaised s l).recency = s.recency :=
  (raise_report _ _ _).delivery.recency

theorem breakRaised_message (s : State) (l : LineNo) : { (breakRaised s l).mgmt with reports := s.mgmt.reports } = s.mgmt :=
  (raise_report _ _ _).delivery.message

theorem breakRaised_quiet (s : State) (l : LineNo) (h : s.latch.alertMode = false) : (breakRaised s l).mgmt = s.mgmt :=
  raise_mgmt_quiet _ _ _ h

/-- R10, R33: the message ends in the state in which LINE_BREAK has been raised, and the line is set into break. -/
theorem breakBegins_eq {s : State} {l : LineNo} (hold : s.lines[l].receiver.state = .hold)
    (watch : s.lines[l].receiver.breakWatch ≠ none) :
    breakBegins l s = modLine (endMessageCut (breakRaised s l) l) l fun x =>
      { x with framer := { Framer.reset with state := .broken }, shift := .letters, silence := none } := by
  simp only [breakBegins, if_pos (And.intro hold watch), framerBreaks, framerAbandons, toHunt, modFramer, modLine_modLine]
  rfl

/-- The line in break. -/
theorem breakBegins_line {s : State} {l : LineNo} (hold : s.lines[l].receiver.state = .hold)
    (watch : s.lines[l].receiver.breakWatch ≠ none) :
    (breakBegins l s).lines[l] = { s.lines[l] with
      receiver := { state := .brk, breakWatch := none, markingInterval := none }
      framer := { Framer.reset with state := .broken }
      shift := .letters
      silence := none } := by
  rw [breakBegins_eq hold watch, modLine_line, (endMessageCut_same _ l).lines, breakRaised_line]

theorem breakBegins_occurred {s : State} {l : LineNo} (hold : s.lines[l].receiver.state = .hold)
    (watch : s.lines[l].receiver.breakWatch ≠ none) : Occurred .lineBreak (.line l) s (breakBegins l s) := by
  have raised : Occurred .lineBreak (.line l) s (breakRaised s l) :=
    (raise_occurred _ .lineBreak (.line l)).since (.of_latch rfl) (by decide)
  rw [breakBegins_eq hold watch]
  exact raised.before (TrafficEvents.after (.of_latch rfl) (endMessageCut_traffic _ l)) (by decide)

/-- R33: with nothing to end, the break leaves the store and the buffer. -/
theorem breakBegins_idle {s : State} {l : LineNo} (hold : s.lines[l].receiver.state = .hold)
    (watch : s.lines[l].receiver.breakWatch ≠ none) (h : NothingToEnd s.lines[l].framer) :
    DeliveryOnly { s with lines := (breakBegins l s).lines } (breakBegins l s) ∧ (breakBegins l s).slots = s.slots := by
  have idle : endMessageCut (breakRaised s l) l = breakRaised s l := endMessageCut_idle (by rw [breakRaised_line]; exact h)
  have tables := (breakBegins_only l s).tables
  rw [breakBegins_eq hold watch, idle] at tables ⊢
  have slots := breakRaised_slots s l
  exact ⟨.of_lines tables (breakRaised_recency s l) (breakRaised_message s l) fun n => by rw [modLine_slots, slots], slots⟩

/-- R11: one character time of marking ends the break. -/
theorem breakEnds_eq {s : State} {l : LineNo} (brk : s.lines[l].receiver.state = .brk)
    (marking : s.lines[l].receiver.markingInterval ≠ none) :
    breakEnds l s = modLine s l fun x => { x with
      receiver := Receiver.reset
      framer := Framer.reset
      silence := if lineInService x ∧ 0 < x.desc.silenceLimit then some (x.desc.silenceLimit * 10) else x.silence } := by
  have load : ∀ x, (silenceLoad x).or x.silence =
      if lineInService x ∧ 0 < x.desc.silenceLimit then some (x.desc.silenceLimit * 10) else x.silence := by
    intro x
    cases service : lineInService x with
    | false => simp [silenceLoad, service]
    | true => simpa using silenceLoad_inService service
  simp only [breakEnds, if_pos (And.intro brk marking), reloadSilence, toHunt, modFramer, modReceiver, modLine_modLine, load]
  rfl

/-- R12: the expiry stops the timer and raises LINE_SILENT. -/
theorem lineSilent_eq {s : State} {l : LineNo} (h : s.lines[l].silence ≠ none) :
    lineSilent l s = raise (modLine s l fun x => { x with silence := none }) .lineSilent (.line l) := by
  simp only [lineSilent, if_neg h]

/-- Settles O7: each expiry by what its event does to the line, the message's end by the framer's state. -/
theorem breaksAndSilenceAreReported : Obligations.BreaksAndSilenceAreReported := by
  unfold Obligations.BreaksAndSilenceAreReported
  refine ⟨fun s l high => ⟨fun hold watch => ?_, fun brk marking => ?_⟩, fun s l high running => ?_⟩
  · have broken := breakBegins_eq hold watch
    have framer : (breakRaised s l).lines[l].framer = s.lines[l].framer := by rw [breakRaised_line]
    refine ⟨breakBegins l s, runEvent_high high, breakBegins_line hold watch, breakBegins_occurred hold watch,
      breakBegins_only l s, fun n t k body ref take => ?_, fun management => ?_, breakBegins_idle hold watch⟩
    · obtain ⟨stored, recency⟩ := endMessageCut_copyBody (s := breakRaised s l) (l := l) (by rw [framer]; exact body)
        (by rw [framer]; exact ref) ((takeAt_of_slots (breakRaised_slots s l) n t).trans take)
      rw [framer] at stored
      rw [broken]
      exact ⟨stored, recency.trans (by rw [breakRaised_recency])⟩
    · obtain ⟨dropped, slots, reports⟩ := endMessageCut_management (s := breakRaised s l) (l := l)
        (by rw [framer]; exact management)
      rw [broken]
      refine ⟨dropped, slots.trans (breakRaised_slots s l), fun h holder quiet room => ?_⟩
      rw [breakRaised_quiet s l quiet] at reports
      exact reports h holder room
  · rw [← breakEnds_eq brk marking]
    exact runBareEvent_high high
  · have raised := raise_report (modLine s l fun x => { x with silence := none }) .lineSilent (.line l)
    have occurred : Occurred .lineSilent (.line l) s (lineSilent l s) := by
      rw [lineSilent_eq running]
      exact (raise_occurred _ .lineSilent (.line l)).since (.of_latch rfl) (by decide)
    refine ⟨lineSilent l s, runEvent_high high, ?_⟩
    have tables := (lineSilent_only l s).tables
    rw [lineSilent_eq running] at tables occurred ⊢
    exact ⟨raised.delivery.lines, occurred,
      .of_lines tables raised.delivery.recency raised.delivery.message raised.delivery.stories, raised.slots, raised.freeCount⟩

/-! ### LINE -/

/-- R5 steps 1 to 5: the line set afresh; the message it was in the middle of has not ended yet. -/
def lineAfresh (s : State) (l : LineNo) (d : LineDesc) : State :=
  modLine s l fun x => { x with desc := d, outOfService := false, receiver := Receiver.reset, shift := .letters }

theorem lineAfresh_line (s : State) (l : LineNo) (d : LineDesc) : (lineAfresh s l d).lines[l] =
    { s.lines[l] with desc := d, outOfService := false, receiver := Receiver.reset, shift := .letters } :=
  modLine_line s l _

/-- R5, R34: the message ends on the line set afresh, and the framer and the silence timer begin anew. -/
theorem setLine_eq (s : State) (l : LineNo) (d : LineDesc) :
    setLine s l d = modLine (endMessageCut (lineAfresh s l d) l) l fun x =>
      { x with framer := Framer.reset, silence := silenceLoad x } := by
  simp only [setLine, abandonReception, framerAbandons, toHunt, modFramer, modLine_modLine]
  rfl

theorem setLine_line (s : State) (l : LineNo) (d : LineDesc) :
    (setLine s l d).lines[l] =
      { input := s.lines[l].input, desc := d, outOfService := false, receiver := Receiver.reset, shift := .letters
        silence := if d.rates ≠ noneOf 8 ∧ 0 < d.silenceLimit then some (d.silenceLimit * 10) else none
        framer := Framer.reset, counters := s.lines[l].counters } := by
  rw [setLine_eq, modLine_line, (endMessageCut_same _ l).lines, lineAfresh_line]
  simp [silenceLoad, lineInService]

/-- Besides the new descriptor and the mark, LINE changes the line alone and the traffic. -/
theorem setLine_only (s : State) (l : LineNo) (d : LineDesc) :
    LineOnly l (modLine s l fun x => { x with desc := d, outOfService := false }) (setLine s l d) :=
  (modLine_only _ l _ (by intro x; exact ⟨rfl, rfl⟩)).after ((framerAbandons_only _ l).after
    (modLine_only _ l _ (by intro x; exact ⟨rfl, rfl⟩)))

/-- R34: with nothing to end, LINE changes the line and nothing else. -/
theorem setLine_idle {s : State} {l : LineNo} (d : LineDesc) (h : NothingToEnd s.lines[l].framer) :
    setLine s l d = modLine s l fun _ => (setLine s l d).lines[l] := by
  have idle : endMessageCut (lineAfresh s l d) l = lineAfresh s l d := endMessageCut_idle (by rw [lineAfresh_line]; exact h)
  have afresh : setLine s l d = modLine s l fun x => { x with
      desc := d, outOfService := false, receiver := Receiver.reset, shift := .letters, framer := Framer.reset
      silence := silenceLoad { x with desc := d, outOfService := false } } := by
    rw [setLine_eq, idle, lineAfresh, modLine_modLine]
    rfl
  rw [afresh]
  exact modLine_congr (by rw [modLine_line])

section LineRequest

variable {s : State} {ops : List Text}

theorem line_refused {r : Reason} (h : serves s "LINE" 3 ops) (b : bodyLine ops (popLine s) = refuse (popLine s) r) :
    RefusedWith (.line ops) s "LINE" r := by
  show runRequest "LINE" (fun _ => 3) (bodyLine ops) ops s = _
  rw [runRequest_serves (lvl := fun _ => 3) h, b, answerWith_refuse]

theorem line_done {t : State} {results : List Text} (h : serves s "LINE" 3 ops)
    (b : bodyLine ops (popLine s) = done t results) : DoneWith (.line ops) s "LINE" results t := by
  show runRequest "LINE" (fun _ => 3) (bodyLine ops) ops s = _
  rw [runRequest_serves (lvl := fun _ => 3) h, b, answerWith_done]

end LineRequest

/-! R4: the answers in the order in which they are judged. -/

theorem bodyLine_length (ops : List Text) (s : State) (h : ops.length ≠ 8) : bodyLine ops s = refuse s .form := by
  unfold bodyLine
  split
  · exact absurd rfl h
  · rfl

section LineAnswers

variable (s : State) {ln rs wd sp bk ag cl si : Text} {n c m : Nat}

theorem bodyLine_numbers (h : lineForm ln = none ∨ number? cl = none ∨ number? si = none) :
    bodyLine [ln, rs, wd, sp, bk, ag, cl, si] s = refuse s .form := by
  unfold bodyLine
  dsimp only
  split
  · next hn hc hm => simp [hn, hc, hm] at h
  · rfl

theorem bodyLine_range (hn : lineForm ln = some n) (hc : number? cl = some c) (hm : number? si = some m) (h : 24 ≤ n) :
    bodyLine [ln, rs, wd, sp, bk, ag, cl, si] s = refuse s .range := by
  simp only [bodyLine, hn, hc, hm, below_none h]

theorem lineForms_none (h : rateSetForm rs = none ∨ widthForm wd = none ∨ stopForm sp = none ∨ bankInRange bk = none ∨
    agencyForm ag = none) : lineForms rs wd sp bk ag = none := by
  unfold lineForms
  split
  · next hr hw hp hb ha => simp [hr, hw, hp, hb, ha] at h
  · rfl

theorem bodyLine_forms {l : LineNo} (hn : lineForm ln = some l.val) (hc : number? cl = some c) (hm : number? si = some m)
    (h : lineForms rs wd sp bk ag = none) : bodyLine [ln, rs, wd, sp, bk, ag, cl, si] s = refuse s .form := by
  simp only [bodyLine, hn, hc, hm, below_val, h]

theorem bodyLine_judged {l : LineNo} {f : RateSet × Width × Stop × BankNo × Option Agency} (hn : lineForm ln = some l.val)
    (hc : number? cl = some c) (hm : number? si = some m) (h : lineForms rs wd sp bk ag = some f) :
    bodyLine [ln, rs, wd, sp, bk, ag, cl, si] s = lineJudged s l f c m := by
  simp only [bodyLine, hn, hc, hm, below_val, h]

theorem lineJudged_range (l : LineNo) (f : RateSet × Width × Stop × BankNo × Option Agency) (h : 4 ≤ c) :
    lineJudged s l f c m = refuse s .range := by
  simp only [lineJudged, below_none h]

theorem lineJudged_mismatch (l : LineNo) (r : RateSet) {w : Width} (p : Stop) {b : BankNo} (a : Option Agency) (v : Level)
    (h : kindMatches w s.banks[b].kind = false) : lineJudged s l (r, w, p, b, a) v.val m = refuse s .form := by
  unfold lineJudged
  rw [below_val]
  exact if_neg (by rw [h]; decide)

theorem lineJudged_accepted (l : LineNo) (r : RateSet) {w : Width} (p : Stop) {b : BankNo} (a : Option Agency) (v : Level)
    (h : kindMatches w s.banks[b].kind = true) {d : LineDesc}
    (hd : d = { rates := r, width := w, stop := p, bank := b, agency := a, clearance := v, silenceLimit := min m 255 }) :
    lineJudged s l (r, w, p, b, a) v.val m = done (atOnce (setLine s l d)) (lineDescToks d) := by
  subst hd
  unfold lineJudged
  rw [below_val]
  exact if_pos h

end LineAnswers

/-! R34: the message that an accepted LINE ends. -/

theorem setLine_copyBody {s : State} {l : LineNo} (d : LineDesc) {n : SlotNo} {t : TakeNo} {k : Take}
    (hs : s.lines[l].framer.state = .copyBody) (hr : s.lines[l].framer.takeRef = some (n, t)) (hk : takeAt s n t = some k) :
    StoredCut n t s.lines[l].framer k (setLine s l d) ∧
      (setLine s l d).recency = n :: s.recency.filter (fun m => m ≠ n) := by
  have framer : (lineAfresh s l d).lines[l].framer = s.lines[l].framer := by rw [lineAfresh_line]
  have ends := endMessageCut_copyBody (s := lineAfresh s l d) (l := l) (by rw [framer]; exact hs) (by rw [framer]; exact hr) hk
  rw [framer] at ends
  rw [setLine_eq]
  exact ends

theorem setLine_management {s : State} {l : LineNo} (d : LineDesc) (h : InManagement s.lines[l].framer) :
    Dropped (setLine s l d) ∧
      ∀ m : LineNo, s.mgmt.holder = some m → s.mgmt.reports.length < 8 →
        (setLine s l d).mgmt.reports = s.mgmt.reports ++ [shortReplyText s.mgmt.tag m "CUT"] := by
  obtain ⟨dropped, -, reports⟩ := endMessageCut_management (s := lineAfresh s l d) (l := l) (by rw [lineAfresh_line]; exact h)
  rw [setLine_eq]
  exact ⟨dropped, reports⟩

/-- Settles O21: the answers of `bodyLine` in their order, and for an accepted LINE what `setLine` makes of the line and of
the message it ends. -/
theorem lineSetsTheLine : Obligations.LineSetsTheLine := by
  unfold Obligations.LineSetsTheLine
  refine ⟨fun s ops turn length => line_refused turn (bodyLine_length ops _ length), ?_⟩
  rintro s ln rs wd sp bk ag cl si turn i rfl
  refine ⟨fun h => line_refused turn (bodyLine_numbers _ h), ?_⟩
  intro n c m hn hc hm
  refine ⟨fun h => line_refused turn (bodyLine_range _ hn hc hm h), ?_⟩
  rintro l rfl
  refine ⟨fun h => line_refused turn (bodyLine_forms _ hn hc hm (lineForms_none h)), ?_⟩
  intro r w p b a hr hw hp hb ha
  have formed : lineForms rs wd sp bk ag = some (r, w, p, b, a) := by simp only [lineForms, hr, hw, hp, hb, ha]
  have judged := bodyLine_judged (popLine s) hn hc hm formed
  refine ⟨fun h => line_refused turn (judged.trans (lineJudged_range _ l _ h)), ?_⟩
  rintro v rfl
  refine ⟨fun mismatch => line_refused turn (judged.trans (lineJudged_mismatch (popLine s) l r p a v mismatch)), ?_⟩
  intro matched d hd
  have accepted := line_done turn (judged.trans (lineJudged_accepted (popLine s) l r p a v matched hd))
  have line := setLine_line (popLine s) l d
  exact ⟨setLine (popLine s) l d, by subst hd; exact accepted, setLine_only _ l d, by subst hd; exact line,
    setLine_idle (s := popLine s) (l := l) d, fun _ _ _ => setLine_copyBody (s := popLine s) (l := l) d,
    setLine_management (s := popLine s) (l := l) d⟩

end Sys2Proof.Machine
/-! ## The slots stay sound

R58, R61, R64, R83 for the slots and R17, R60 for the framers, of every step. `Keeps P` says what an operation keeps: the
slots stay sound, and every line that satisfies `P` has its framer as it was and goes on filling the take it fills. It
composes, so each operation is followed once, from the pool and the senders up to the framers. -/

namespace Sys2Proof.Machine

open Sys2Proof

/-- Line `m` is filling the take. -/
structure FilledBy (m : LineNo) (k : Take) : Prop where
  filling : fillingTake k = true
  line : k.fillingLine = some m

theorem FilledBy.blind (m : LineNo) : BlindToSuperseded (FilledBy m) := fun _ _ h => { h with }

/-- A sound part stays sound, and in it the lines that satisfy `P` keep their framers and the takes they are filling. -/
def Keeps (P : LineNo → Prop) (s u : State) : Prop :=
  SlotsSound s → SlotsSound u ∧ ∀ m, P m →
    u.lines[m].framer = s.lines[m].framer ∧ ∀ n t, TakeIs n t (FilledBy m) s → TakeIs n t (FilledBy m) u

variable {P : LineNo → Prop}

theorem Keeps.refl (s : State) : Keeps P s s := fun h => ⟨h, fun _ _ => ⟨rfl, fun _ _ k => k⟩⟩

theorem Keeps.trans {s t u : State} (h : Keeps P s t) (g : Keeps P t u) : Keeps P s u := by
  intro sound
  obtain ⟨ht, first⟩ := h sound
  obtain ⟨hu, second⟩ := g ht
  refine ⟨hu, fun m hm => ?_⟩
  obtain ⟨f, a⟩ := first m hm
  obtain ⟨f', b⟩ := second m hm
  exact ⟨f'.trans f, fun n t k => b n t (a n t k)⟩

/-- `trans` with the later change first. -/
theorem Keeps.after {s t u : State} (g : Keeps P t u) (h : Keeps P s t) : Keeps P s u := h.trans g

/-- What an operation keeps may rest on the slots being sound before it. -/
theorem Keeps.of_sound {s u : State} (h : SlotsSound s → Keeps P s u) : Keeps P s u := fun sound => h sound sound

/-! ### What keeps the slots sound -/

/-- A slot that is as it was, as far as the soundness of the slots looks at it. -/
structure SameStory (x y : Slot) : Prop where
  state : y.state = x.state
  key : y.key = x.key
  held : y.held = true → x.held = true
  freed : x = Slot.freed → y = Slot.freed

theorem SameStory.refl (x : Slot) : SameStory x x := ⟨rfl, rfl, id, id⟩

theorem heldCount_le_of_imp {s u : State} (h : ∀ n : SlotNo, u.slots[n].held = true → s.slots[n].held = true) :
    heldCount u ≤ heldCount s := (List.monotone_filter_right (List.finRange 40) h).length_le

theorem SlotsSound.same {s u : State} (h : SlotsSound s) (slots : ∀ n : SlotNo, SameStory s.slots[n] u.slots[n])
    (recency : u.recency.Perm (List.finRange 40)) : SlotsSound u where
  free n e := (slots n).freed (h.free n ((slots n).state ▸ e))
  keyed n e := by
    rw [(slots n).key]
    exact h.keyed n ((slots n).state ▸ e)
  distinct m n hmn em en := by
    rw [(slots m).key, (slots n).key]
    exact h.distinct m n hmn ((slots m).state ▸ em) ((slots n).state ▸ en)
  held := Nat.le_trans (heldCount_le_of_imp fun n => (slots n).held) h.held
  recency := recency

/-- Slots and recency list as they were. -/
theorem SlotsSound.of_eq {s u : State} (h : SlotsSound s) (slots : u.slots = s.slots) (recency : u.recency = s.recency) :
    SlotsSound u := h.same (fun n => by rw [slots]; exact .refl _) (by rw [recency]; exact h.recency)

theorem toFront_perm {l : List SlotNo} (h : l.Perm (List.finRange 40)) (n : SlotNo) :
    (toFront n l).Perm (List.finRange 40) := by
  have nodup : l.Nodup := h.nodup_iff.mpr (List.nodup_finRange 40)
  have mem : n ∈ l := h.mem_iff.mpr (List.mem_finRange n)
  have front : toFront n l = n :: l.erase n := by
    rw [nodup.erase_eq_filter]
    exact congrArg (n :: ·) (List.filter_congr fun m _ => by rw [decide_not]; rfl)
  rw [front]
  exact (List.perm_cons_erase mem).symm.trans h

theorem toTail_perm {l : List SlotNo} (h : l.Perm (List.finRange 40)) (n : SlotNo) :
    (toTail n l).Perm (List.finRange 40) :=
  (List.perm_append_singleton n _).trans (toFront_perm h n)

/-- A FREE slot of a sound part holds no take. -/
theorem SlotsSound.occupied {s : State} (h : SlotsSound s) {n : SlotNo} {t : TakeNo} {k : Take} (e : takeAt s n t = some k) :
    s.slots[n].state = .occupied := by
  cases state : s.slots[n].state with
  | occupied => rfl
  | free =>
    unfold takeAt at e
    rw [h.free n state] at e
    simp [Slot.freed] at e

/-! ### Ways to keep -/

/-- An operation that leaves the slots and the recency list, and the framers of the lines that satisfy `P`. -/
theorem Keeps.of_eq {s u : State} (slots : u.slots = s.slots) (recency : u.recency = s.recency)
    (framers : ∀ m, P m → u.lines[m].framer = s.lines[m].framer) : Keeps P s u := fun sound =>
  ⟨sound.of_eq slots recency, fun m hm => ⟨framers m hm, fun _ _ k => k.of_slots slots⟩⟩

/-- An operation that leaves the slots, the recency list and the lines. -/
theorem Keeps.of_eq_lines {s u : State} (slots : u.slots = s.slots) (recency : u.recency = s.recency)
    (lines : u.lines = s.lines) : Keeps P s u := .of_eq slots recency fun m _ => by rw [lines]

/-- Deliveries keep the stories; a FREE slot they must leave as it is. -/
theorem DeliveryOnly.keeps {s u : State} (h : DeliveryOnly s u)
    (free : ∀ n : SlotNo, s.slots[n] = Slot.freed → u.slots[n] = Slot.freed) : Keeps P s u := by
  intro sound
  refine ⟨sound.same (fun n => ?_) (h.recency ▸ sound.recency), fun m _ => ⟨by rw [h.lines], fun n t k =>
    k.delivery (FilledBy.blind m) h⟩⟩
  have core := h.stories n
  exact ⟨(congrArg Slot.state core :), (congrArg Slot.key core :), Eq.trans (congrArg Slot.held core :).symm, free n⟩

theorem OnlyCircuit.keeps {c : CircuitNo} {s u : State} (h : OnlyCircuit c s u) : Keeps P s u :=
  .of_eq_lines h.slots h.delivery.recency h.delivery.lines

theorem ReportOnly.keeps {s u : State} (h : ReportOnly s u) : Keeps P s u :=
  .of_eq_lines h.slots h.delivery.recency h.delivery.lines

/-- A change to slot `n` that leaves it the same story, with its filled takes filled. -/
theorem modSlot_keeps {s : State} {n : SlotNo} {f : Slot → Slot}
    (story : SlotsSound s → SameStory s.slots[n] (f s.slots[n]))
    (fills : SlotsSound s → ∀ m, P m → ∀ (t : TakeNo) (k : Take), s.slots[n].takes[t] = some k → FilledBy m k →
      ∃ k', (f s.slots[n]).takes[t] = some k' ∧ FilledBy m k') : Keeps P s (modSlot s n f) := by
  intro sound
  refine ⟨sound.same (fun j => ?_) sound.recency, fun m hm => ⟨rfl, fun j t h => ?_⟩⟩
  · rw [modSlot_slots, modAt_get]
    split
    · next e => subst e; exact story sound
    · exact .refl _
  · obtain ⟨k, hk, filled⟩ := h
    by_cases e : j = n
    · subst e
      unfold TakeIs
      rw [takeAt_modSlot]
      exact fills sound m hm t k hk filled
    · exact ⟨k, by unfold takeAt; rw [modSlot_slots, modAt_other _ _ e]; exact hk, filled⟩

/-- A change to a take: it may no more be filled by a line that satisfies `P`, or it stays so. -/
theorem modTake_keeps {s : State} {n : SlotNo} {t : TakeNo} {f : Take → Take}
    (h : ∀ m, P m → ∀ k, takeAt s n t = some k → FilledBy m k → FilledBy m (f k)) : Keeps P s (modTake s n t f) := by
  refine modSlot_keeps (fun _ => ⟨rfl, rfl, id, fun freed => ?_⟩) fun _ m hm j k hk filled => ?_
  · rw [freed]
    have none : modAt Slot.freed.takes t (Option.map f) = Slot.freed.takes := modAt_id _ _ _ (by simp [Slot.freed])
    rw [none]
  · show ∃ k', (modAt s.slots[n].takes t (Option.map f))[j] = some k' ∧ FilledBy m k'
    rw [modAt_get]
    split
    · next e =>
      subst e
      exact ⟨f k, by rw [hk]; rfl, h m hm k hk filled⟩
    · exact ⟨k, hk, filled⟩

/-- A change to a take's text and readers: it is filled by its line as before. -/
theorem modTake_keeps_filled {s : State} {n : SlotNo} {t : TakeNo} {f : Take → Take}
    (h : ∀ m k, FilledBy m k → FilledBy m (f k)) : Keeps P s (modTake s n t f) := modTake_keeps fun m _ k _ => h m k

/-- A relation kept by each turn is kept by the turns of a list. -/
theorem foldl_keepsSlots {α : Type} (f : State → α → State) (h : ∀ s a, Keeps P s (f s a)) (l : List α) (s : State) :
    Keeps P s (l.foldl f s) := foldl_keeps (Keeps P) .refl .trans f h l s

/-! ### Records and characters sent -/

theorem dropReader_freed (t : TakeNo) : dropReader Slot.freed t = Slot.freed := by
  simp [dropReader, Slot.freed]

theorem unname_freed (f : RecRef) : unname Slot.freed f = Slot.freed := by
  have same : ({ Slot.freed with pendingCount := Slot.freed.pendingCount - 1 } : Slot) = Slot.freed := rfl
  unfold unname
  rw [same]
  split
  · rfl
  · exact dropReader_freed _

/-- A change to a slot that is a matter of deliveries and leaves a FREE slot FREE. -/
theorem modSlot_delivery_keeps (s : State) (n : SlotNo) (f : Slot → Slot) (h : ∀ x, slotCore (f x) = slotCore x)
    (free : f Slot.freed = Slot.freed) : Keeps P s (modSlot s n f) := by
  refine (modSlot_delivery s n f h).keeps fun j e => ?_
  rw [modSlot_slots, modAt_get, e, free, ite_self]

theorem unnameIn_keeps (s : State) (ref : Option RecRef) : Keeps P s (unnameIn s ref) := by
  cases ref with
  | none => exact .refl s
  | some f => exact modSlot_delivery_keeps s _ _ (fun x => slotCore_unname x f) (unname_freed f)

theorem returnRecord_keeps (s : State) (r : Rec) : Keeps P s (returnRecord s r) :=
  (unnameIn_keeps _ _).after (.of_eq_lines rfl rfl rfl)

theorem returnRecords_keeps (s : State) (rs : List Rec) : Keeps P s (returnRecords s rs) :=
  foldl_keepsSlots _ returnRecord_keeps rs s

theorem finishCut_keeps (s : State) (c : CircuitNo) (r : Rec) : Keeps P s (finishCut s c r) :=
  (select_only _ c).keeps.after ((returnRecord_keeps _ r).after (modSender_only s c _).keeps)

theorem finishDelivery_keeps (s : State) (c : CircuitNo) (r : Rec) : Keeps P s (finishDelivery s c r) :=
  (select_only _ c).keeps.after ((returnRecord_keeps _ r).after (modSender_only s c _).keeps)

theorem handBackCurrent_keeps (s : State) (c : CircuitNo) (r : Rec) (f : RecRef) :
    Keeps P s (handBackCurrent s c r f) := by
  unfold handBackCurrent
  split
  · exact returnRecord_keeps s r
  · exact (modQueue_only s c _).keeps

theorem handBack_keeps (s : State) (c : CircuitNo) (r : Rec) : Keeps P s (handBack s c r) := by
  unfold handBack
  split
  · exact returnRecord_keeps s r
  · split
    · exact handBackCurrent_keeps s c r _
    · exact (handBackCurrent_keeps _ c _ _).after
        (modSlot_delivery_keeps s _ _ (fun x => slotCore_dropReader x _) (dropReader_freed _))

theorem closeEnds_keeps (s : State) (c : CircuitNo) (r : Rec) (last : Phase) : Keeps P s (closeEnds s c r last) := by
  have handed := fun x : Rec => (handBack_keeps (P := P) (modSender s c Sender.bare) c x).after (modSender_only s c _).keeps
  unfold closeEnds
  dsimp only
  split
  · exact (select_only _ c).keeps.after (handed _)
  · exact (enterPausing_only _ c).keeps.after (handed _)

theorem goOn_keeps (s : State) (c : CircuitNo) (r : Rec) (last : Phase) : Keeps P s (goOn s c r last) := by
  unfold goOn
  dsimp only
  split
  · split
    · exact closeEnds_keeps s c r last
    · exact (takeNext_only s c).keeps
  · split
    · exact (takeBreak_only _ c r).keeps.after (modSender_only s c _).keeps
    · exact (takeNext_only s c).keeps

theorem recordSent_keeps (s : State) (c : CircuitNo) (r : Rec) (last : Phase) : Keeps P s (recordSent s c r last) := by
  unfold recordSent
  dsimp only
  split
  · split
    · exact finishCut_keeps s c r
    · exact (takeNext_only s c).keeps
  · split
    · exact (startCut_only s c).keeps
    · split
      · exact (finishDelivery_keeps _ c r).after (modSender_only s c _).keeps
      · exact (goOn_keeps _ c r last).after (modSender_only s c _).keeps

theorem charSent_keeps (s : State) (c : CircuitNo) : Keeps P s (charSent s c) := by
  unfold charSent
  dsimp only
  split
  · exact .refl s
  · split
    · exact (modSender_only s c _).keeps
    · exact (reportSent_report _ c).keeps.after (modSender_only s c _).keeps
    · exact (recordSent_keeps _ c _ _).after (modSender_only s c _).keeps

theorem sendEmpty_keeps (fuel : Nat) (s : State) : Keeps P s (sendEmpty fuel s) := by
  induction fuel generalizing s with
  | zero => exact .refl s
  | succ fuel ih =>
    unfold sendEmpty
    split
    · exact .refl s
    · exact (ih _).after (charSent_keeps s _)

theorem atOnce_keeps (s : State) : Keeps P s (atOnce s) := sendEmpty_keeps _ s

/-! ### Making records -/

/-- Deliveries leave a slot OCCUPIED. -/
theorem DeliveryOnly.occupied {s u : State} (h : DeliveryOnly s u) {n : SlotNo} (e : s.slots[n].state = .occupied) :
    u.slots[n].state = .occupied := Eq.trans (congrArg Slot.state (h.stories n) :) e

/-- A making is for an OCCUPIED slot, and keeps. -/
structure MakesFor (P : LineNo → Prop) (n : SlotNo) (s u : State) : Prop where
  delivery : DeliveryOnly s u
  keeps : s.slots[n].state = .occupied → Keeps P s u

theorem MakesFor.refl (n : SlotNo) (s : State) : MakesFor P n s s := ⟨.refl s, fun _ => .refl s⟩

theorem MakesFor.trans {n : SlotNo} {s t u : State} (h : MakesFor P n s t) (g : MakesFor P n t u) : MakesFor P n s u :=
  ⟨h.delivery.trans g.delivery, fun e => (h.keeps e).trans (g.keeps (h.delivery.occupied e))⟩

theorem addPending_keeps {s : State} {n : SlotNo} (h : s.slots[n].state = .occupied) : Keeps P s (addPending s n) := by
  refine (addPending_delivery s n).keeps fun j e => ?_
  have other : j ≠ n := by
    rintro rfl
    rw [e] at h
    cases h
  rw [addPending_slots, modAt_other _ _ other, e]

theorem makeFree_makes (s : State) (c : CircuitNo) (n : SlotNo) (r : Rec) : MakesFor P n s (makeFree s c n r) := by
  refine ⟨makeFree_delivery s c n r, fun e => ?_⟩
  have pending : Keeps P { s with freeCount := s.freeCount - 1 } (addPending { s with freeCount := s.freeCount - 1 } n) :=
    addPending_keeps e
  exact (joinQueue_only _ c r).keeps.after (pending.after (.of_eq_lines rfl rfl rfl))

theorem miss_keeps (s : State) (c : CircuitNo) : Keeps P s (miss s c) :=
  (raise_report _ _ _).keeps.after (modSender_only s c _).keeps

theorem displaceAt_makes (s : State) (c : CircuitNo) (i : Nat) (old : Rec) (n : SlotNo) (r : Rec) :
    MakesFor P n s (displaceAt s c i old n r) := by
  refine ⟨displaceAt_delivery s c i old n r, fun e => ?_⟩
  have missed : DeliveryOnly s (raiseMissed (countMissed (unnameIn (modQueue s c fun q => withoutAt q i) old.ref) c) c
      (keyOfRecord s old)) :=
    (raiseMissed_report _ c _).delivery.after ((modSender_only _ c _).delivery.after
      ((unnameIn_delivery _ _).after (modQueue_only s c _).delivery))
  have before : Keeps P s (raiseMissed (countMissed (unnameIn (modQueue s c fun q => withoutAt q i) old.ref) c) c
      (keyOfRecord s old)) :=
    (raiseMissed_report _ c _).keeps.after ((modSender_only _ c _).keeps.after
      ((unnameIn_keeps _ _).after (modQueue_only s c _).keeps))
  exact (joinQueue_only _ c r).keeps.after ((addPending_keeps (missed.occupied e)).after before)

theorem turnFor_makes (n : SlotNo) (r : Rec) (s : State) (c : CircuitNo) : MakesFor P n s (turnFor n r s c) := by
  have missed : MakesFor P n s (miss s c) := ⟨miss_delivery s c, fun _ => miss_keeps s c⟩
  unfold turnFor
  split
  · exact makeFree_makes s c n r
  · split
    · split
      · exact missed
      · split
        · exact displaceAt_makes s c _ _ n r
        · exact missed
    · exact missed

theorem takenBeforeTurn_keeps (s : State) (i : Instr) : Keeps P s (takenBeforeTurn s i) := by
  unfold takenBeforeTurn
  split
  · split
    · exact charSent_keeps s _
    · exact .refl s
  · split
    · exact (motorReady_only _ s).keeps
    · exact .refl s
  · exact .refl s

/-- Events in the middle of a step that each keep, keep together. -/
theorem inGap_keeps (f : State → Instr → State) (h : ∀ s i, Keeps P s (f s i)) (s : State) : Keeps P s (inGap f s) :=
  (foldl_keepsSlots f h _ _).after (.of_eq_lines rfl rfl rfl)

theorem inGap_takenBeforeTurn_makes (n : SlotNo) (s : State) : MakesFor P n s (inGap takenBeforeTurn s) :=
  ⟨inGap_delivery _ takenBeforeTurn_delivery s, fun _ => inGap_keeps _ takenBeforeTurn_keeps s⟩

theorem makeTurn_makes (n : SlotNo) (r : Rec) (s : State) (c : CircuitNo) : MakesFor P n s (makeTurn n r s c) :=
  (inGap_takenBeforeTurn_makes n s).trans (turnFor_makes n r _ c)

theorem makeRecords_makes (s : State) (cs : List CircuitNo) (n : SlotNo) (r : Rec) :
    MakesFor P n s (makeRecords s cs n r) := foldl_keeps (MakesFor P n) (.refl n) .trans _ (makeTurn_makes n r) cs s

theorem makeFor_keeps (s : State) (n : SlotNo) (t : TakeNo) (k : RecKind) (gap : List TakeNo) (but : List CircuitNo) :
    Keeps P s (makeFor s n t k gap but) := by
  unfold makeFor
  split
  · exact .refl s
  · next present => exact .of_sound fun sound => (makeRecords_makes s _ n _).keeps (sound.occupied present)

/-! ### Filling a take -/

@[simp] theorem withFilling_fillingLine (k : Take) (v : Version) : (withFilling k v).fillingLine = k.fillingLine := by
  unfold withFilling
  split <;> rfl

theorem withFilling_filledBy {m : LineNo} {k : Take} {v : Version} : FilledBy m (withFilling k v) ↔ FilledBy m k := by
  have filling : fillingTake (withFilling k v) = fillingTake k := by simp only [fillingTake, withFilling_state]
  constructor
  · exact fun h => ⟨filling ▸ h.filling, withFilling_fillingLine k v ▸ h.line⟩
  · exact fun h => ⟨filling ▸ h.filling, (withFilling_fillingLine k v).trans h.line⟩

theorem raiseTakeCut_keeps (s : State) (n : SlotNo) (t : TakeNo) : Keeps P s (raiseTakeCut s n t) :=
  (raiseTakeCut_report s n t).keeps

/-- A slot that holds a take is not as a FREE slot is. -/
theorem ne_freed_of_take {x : Slot} {t : TakeNo} {k : Take} (h : x.takes[t] = some k) : x ≠ Slot.freed := by
  rintro rfl
  simp [Slot.freed] at h

/-- A take present in the slot is written anew, filled by its line if it was so before. -/
theorem putTake_keeps {s : State} {n : SlotNo} {t : TakeNo} {k k' : Take} {map : BitSet 64} {f : Slot → Slot}
    (h : takeAt s n t = some k)
    (written : f s.slots[n] = { s.slots[n] with takes := put s.slots[n].takes t (some k'), blockMap := map })
    (filled : ∀ m, FilledBy m k → FilledBy m k') : Keeps P s (modSlot s n f) := by
  refine modSlot_keeps (fun _ => ?_) fun _ m _ j x hx hm => ?_
  · rw [written]
    exact ⟨rfl, rfl, id, fun freed => absurd freed (ne_freed_of_take h)⟩
  · rw [written]
    by_cases e : j = t
    · subst e
      have same : x = k := Option.some.inj (hx.symm.trans h)
      exact ⟨k', put_same _ _ _, filled m (same ▸ hm)⟩
    · exact ⟨x, (put_other _ _ e).trans hx, hm⟩

theorem writeChar_keeps (s : State) (n : SlotNo) (t : TakeNo) (h : House) : Keeps P s (writeChar s n t h) := by
  unfold writeChar
  split
  · exact .refl s
  · next k present =>
    have same : ∀ {f : Take → Take}, (∀ m, FilledBy m k → FilledBy m (f k)) → Keeps P s (modTake s n t f) :=
      fun {f} filled => modTake_keeps fun m _ x hx => by
        obtain rfl : x = k := Option.some.inj (hx.symm.trans present)
        exact filled m
    split
    · dsimp only
      split
      · split
        · exact putTake_keeps present rfl fun m filled => withFilling_filledBy.mpr filled
        · exact (raiseTakeCut_keeps _ n t).after (same fun m filled => ⟨rfl, (withFilling_fillingLine k _).trans filled.line⟩)
      · exact same fun m filled => withFilling_filledBy.mpr filled
    · exact .refl s

/-! ### The order gate -/

/-- No line that satisfies `P` is filling take `t` of slot `n`. -/
def NotFilled (P : LineNo → Prop) (s : State) (n : SlotNo) (t : TakeNo) : Prop :=
  ∀ m, P m → ¬ TakeIs n t (FilledBy m) s

theorem NotFilled.of_take {s : State} {n : SlotNo} {t : TakeNo} (h : ∀ k, takeAt s n t = some k → ∀ m, ¬ FilledBy m k) :
    NotFilled P s n t := fun m _ ⟨k, hk, filled⟩ => h k hk m filled

theorem NotFilled.of_isWaiting {s : State} {n : SlotNo} {t : TakeNo} (h : isWaiting s.slots[n] t = true) :
    NotFilled P s n t := by
  refine .of_take fun k hk m filled => ?_
  have filling := filled.filling
  unfold takeAt at hk
  simp only [isWaiting, hk, decide_eq_true_eq] at h
  simp [fillingTake, h] at filling

/-- Any change to a take that no line is filling keeps. -/
theorem NotFilled.modTake_keeps {s : State} {n : SlotNo} {t : TakeNo} (h : NotFilled P s n t) (f : Take → Take) :
    Keeps P s (modTake s n t f) := Machine.modTake_keeps fun m hm k hk filled => absurd ⟨k, hk, filled⟩ (h m hm)

theorem releaseTake_keeps {s : State} {n : SlotNo} {t : TakeNo} (h : NotFilled P s n t) (k : RecKind) (gap : List TakeNo) :
    Keeps P s (releaseTake s n t k gap) := (makeFor_keeps _ n t k gap []).after (h.modTake_keeps _)

theorem nextReady_isWaiting {x : Slot} {t : TakeNo} (h : nextReady x = some t) : isWaiting x t = true := by
  have both := List.find?_some h
  rw [Bool.and_eq_true] at both
  exact both.1

theorem searchGate_keeps (fuel : Nat) (s : State) (n : SlotNo) : Keeps P s (searchGate fuel s n) := by
  induction fuel generalizing s with
  | zero => exact .refl s
  | succ fuel ih =>
    unfold searchGate
    split
    · exact .refl s
    · next ready => exact (ih _).after (releaseTake_keeps (.of_isWaiting (nextReady_isWaiting ready)) _ _)

theorem gateSearch_keeps (s : State) (n : SlotNo) : Keeps P s (gateSearch s n) := searchGate_keeps 12 s n

/-- What holds of a take whatever its superseded version is held before deliveries if it holds after them. -/
theorem TakeIs.before_delivery {n : SlotNo} {t : TakeNo} {Q : Take → Prop} {s u : State} (h : TakeIs n t Q u)
    (b : BlindToSuperseded Q) (d : DeliveryOnly s u) : TakeIs n t Q s := by
  obtain ⟨k, hk, hQ⟩ := h
  obtain ⟨z, hz⟩ := slotCore_take (d.stories n).symm t hk
  exact ⟨_, hz, b k z hQ⟩

theorem NotFilled.delivery {s u : State} {n : SlotNo} {t : TakeNo} (h : NotFilled P s n t) (d : DeliveryOnly s u) :
    NotFilled P u n t := fun m hm filled => h m hm (filled.before_delivery (FilledBy.blind m) d)

/-- A change to a take by which no line comes to fill it. -/
theorem NotFilled.after_modTake {s : State} {n : SlotNo} {t j : TakeNo} {f : Take → Take} (h : NotFilled P s n j)
    (g : ∀ m k, FilledBy m (f k) → FilledBy m k) : NotFilled P (modTake s n t f) n j := by
  rintro m hm ⟨k', hk', filled⟩
  rw [takeAt_modTake] at hk'
  split at hk'
  · obtain ⟨k, hk, rfl⟩ := Option.map_eq_some_iff.mp hk'
    exact h m hm ⟨k, hk, g m k filled⟩
  · exact h m hm ⟨k', hk', filled⟩

/-- A stored take is filled by no line. -/
theorem FilledBy.not_stored {m : LineNo} {k : Take} (h : FilledBy m k) (stored : storedTake k = true) : False := by
  have filling := h.filling
  simp only [storedTake, fillingTake, Bool.or_eq_true, decide_eq_true_eq] at stored filling
  obtain e | e := stored <;> simp [e] at filling

theorem releaseTake_notFilled {s : State} {n : SlotNo} {j : TakeNo} (h : NotFilled P s n j) (t : TakeNo) (k : RecKind)
    (gap : List TakeNo) : NotFilled P (releaseTake s n t k gap) n j :=
  (h.after_modTake fun _ _ filled => (filled.not_stored rfl).elim).delivery (makeFor_delivery _ n t k gap [])

theorem releases_keep {n : SlotNo} (gone due : List TakeNo) {s : State} (h : ∀ j ∈ due, NotFilled P s n j) :
    Keeps P s (due.foldl (fun u j => releaseTake u n j .new (gapNotice gone j)) s) := by
  induction due generalizing s with
  | nil => exact .refl s
  | cons j due ih =>
    exact (releaseTake_keeps (h j List.mem_cons_self) _ _).trans
      (ih fun i hi => releaseTake_notFilled (h i (List.mem_cons_of_mem j hi)) _ _ _)

/-- The passed numbers of a slot that is not FREE. -/
theorem modPassed_keeps {s : State} {n : SlotNo} (h : s.slots[n] ≠ Slot.freed) (f : Slot → TakeSet) :
    Keeps P s (modSlot s n fun x => { x with passed := f x }) :=
  modSlot_keeps (fun _ => ⟨rfl, rfl, id, fun freed => absurd freed h⟩) fun _ _ _ _ k hk filled => ⟨k, hk, filled⟩

theorem takeAt_modPassed (s : State) (n : SlotNo) (f : Slot → TakeSet) (t : TakeNo) :
    takeAt (modSlot s n fun x => { x with passed := f x }) n t = takeAt s n t := takeAt_modSlot s n _ t

theorem isWaiting_take {x : Slot} {t : TakeNo} (h : isWaiting x t = true) : ∃ k, x.takes[t] = some k := by
  unfold isWaiting at h
  split at h
  · next k hk => exact ⟨k, hk⟩
  · cases h

theorem expireWait_keeps {s : State} {n : SlotNo} (h : s.slots[n] ≠ Slot.freed) (m : TakeNo) :
    Keeps P s (expireWait s n m) := by
  have waiting : ∀ j ∈ waitingUpTo s.slots[n] m, NotFilled P
      (modSlot s n fun x => { x with passed := unionOf x.passed (setOf (passedBy s.slots[n] m)) }) n j := by
    intro j hj
    have waits := (List.mem_filter.mp hj).2
    rw [Bool.and_eq_true] at waits
    rintro i hi ⟨k, hk, filled⟩
    rw [takeAt_modPassed] at hk
    exact NotFilled.of_isWaiting waits.2 i hi ⟨k, hk, filled⟩
  have released := (gateSearch_keeps _ n).after ((releases_keep (passedBy s.slots[n] m) _ waiting).after
    (modPassed_keeps h _))
  unfold expireWait
  dsimp only
  split
  · exact (raise_report _ _ _).keeps.after released
  · exact released

/-- R75: the number is struck from the passed ones, the take is marked late, and it is released. -/
theorem releaseLate_eq (s : State) (n : SlotNo) (t : TakeNo) : releaseLate s n t =
    releaseTake (modTake (modSlot s n fun x => { x with passed := put x.passed t false }) n t
      fun k => { k with late := true }) n t .late [] := by
  unfold releaseLate
  simp only [modTake, modSlot, modAt_modAt]

theorem releaseLate_keeps {s : State} {n : SlotNo} {t : TakeNo} {k : Take} (present : takeAt s n t = some k)
    (h : NotFilled P s n t) : Keeps P s (releaseLate s n t) := by
  have passed : NotFilled P (modSlot s n fun x => { x with passed := put x.passed t false }) n t := by
    rintro i hi ⟨k, hk, filled⟩
    rw [takeAt_modPassed s n fun x => put x.passed t false] at hk
    exact h i hi ⟨k, hk, filled⟩
  have late : NotFilled P (modTake (modSlot s n fun x => { x with passed := put x.passed t false }) n t
      fun k => { k with late := true }) n t := passed.after_modTake fun _ _ filled => ⟨filled.filling, filled.line⟩
  rw [releaseLate_eq]
  exact (releaseTake_keeps late _ _).after
    ((passed.modTake_keeps _).after (modPassed_keeps (ne_freed_of_take present) fun x => put x.passed t false))

/-- R72, R73: the gate keeps, of a take that no line fills any more. -/
theorem gate_keeps {s : State} {n : SlotNo} {t : TakeNo} {k : Take} (present : takeAt s n t = some k)
    (h : NotFilled P s n t) : Keeps P s (gate s n t) := by
  unfold gate
  dsimp only
  split
  · exact (gateSearch_keeps _ n).after (releaseLate_keeps present h)
  · split
    · exact (gateSearch_keeps _ n).after (releaseTake_keeps h _ _)
    · split
      · refine (expireWait_keeps ?_ t).after (h.modTake_keeps _)
        have waits := takeAt_modTake_same s n t fun k => { k with state := .waiting, waitTimer := some s.takeWait }
        rw [present] at waits
        exact ne_freed_of_take waits
      · exact h.modTake_keeps _

/-! ### Records removed or detached, and substitutes -/

theorem detachCarried_keeps (p : Rec → Bool) (line : CutLine) (s : State) (c : CircuitNo) :
    Keeps P s (detachCarried p line s c) := by
  unfold detachCarried
  split
  · split
    · exact (unnameIn_keeps _ _).after (modSender_only s c _).keeps
    · exact .refl s
  · exact .refl s

theorem pullRecords_keeps (p : Rec → Bool) (line : CutLine) (s : State) : Keeps P s (pullRecords p line s) := by
  refine foldl_keepsSlots _ (fun u c => ?_) _ s
  exact (detachCarried_keeps p line _ c).after ((returnRecords_keeps _ _).after (.of_eq_lines rfl rfl rfl))

theorem freeSuperseded_freed (t : TakeNo) : freeSuperseded Slot.freed t = Slot.freed := by
  simp [freeSuperseded, Slot.freed]

theorem dropSuperseded_keeps (s : State) (n : SlotNo) (t : TakeNo) : Keeps P s (dropSuperseded s n t) :=
  (modSlot_delivery_keeps _ n _ (fun x => slotCore_freeSuperseded x t) (freeSuperseded_freed t)).after
    (pullRecords_keeps _ _ s)

theorem replaceVersion_keeps (s : State) (n : SlotNo) (readers : Nat) (t : TakeNo) :
    Keeps P s (modSlot s n (replaceVersion readers t)) := by
  have same : ∀ x, replaceVersion readers t x = x → x = s.slots[n] → Keeps P s (modSlot s n (replaceVersion readers t)) := by
    rintro x e rfl
    exact modSlot_keeps (fun _ => by rw [e]; exact .refl _) fun _ _ _ _ k hk filled => ⟨k, by rw [e]; exact hk, filled⟩
  cases hk : s.slots[n].takes[t] with
  | none => exact same _ (by simp only [replaceVersion, hk]) rfl
  | some k =>
    cases hr : k.replacement with
    | none => exact same _ (by simp only [replaceVersion, hk, hr]) rfl
    | some r => 
      refine putTake_keeps hk (by simp only [replaceVersion, hk, hr]; rfl) ?_
      exact fun m filled => ⟨filled.filling, filled.line⟩

theorem mapCircuits_keeps (s : State) (f : Circuit → Circuit) : Keeps P s { s with circuits := mapAll s.circuits f } :=
  .of_eq_lines rfl rfl rfl

theorem replaceText_keeps (s : State) (n : SlotNo) (t : TakeNo) : Keeps P s (replaceText s n t) := by
  unfold replaceText
  dsimp only
  exact (mapCircuits_keeps _ _).after ((replaceVersion_keeps _ n _ t).after
    ((mapCircuits_keeps _ _).after (dropSuperseded_keeps s n t)))

theorem storeSubstitute_keeps {s : State} {n : SlotNo} {t : TakeNo} {v : Version} (h : TakeIs n t (ReplacedBy v) s) :
    Keeps P s (storeSubstitute s n t) := by
  obtain ⟨k, present, ended⟩ := replaceText_ends h
  have unfilled : NotFilled P (replaceText s n t) n t := .of_take fun k' hk' m filled => by
    obtain rfl : k' = k := Option.some.inj (hk'.symm.trans present)
    have line := filled.line
    rw [ended.fillingLine] at line
    cases line
  unfold storeSubstitute
  simp only [present]
  split
  · exact (makeFor_keeps _ n t _ _ _).after ((unfilled.modTake_keeps _).after (replaceText_keeps s n t))
  · exact (gate_keeps present unfilled).after (replaceText_keeps s n t)

/-! ### The end of a take (R71) -/

theorem slotToFront_keeps (s : State) (n : SlotNo) : Keeps P s (slotToFront s n) := fun sound =>
  ⟨sound.same (fun _ => .refl _) (toFront_perm sound.recency n), fun _ _ => ⟨rfl, fun _ _ k => k⟩⟩

/-- R71 step 1: the take as it ends, closed or cut. -/
def Take.ended (cut : Bool) (k : Take) : Take := if cut then withFilling k { fillingVersion k with cut := true } else k

theorem Take.ended_filledBy {cut : Bool} {k : Take} {m : LineNo} : FilledBy m (k.ended cut) ↔ FilledBy m k := by
  unfold Take.ended
  split
  · exact withFilling_filledBy
  · rfl

theorem Take.ended_replacement {k : Take} {r : Version × Class} (h : k.replacement = some r) (cut : Bool) :
    (k.ended cut).replacement = some (fillingVersion (k.ended cut), r.2) := by
  cases cut <;> simp [Take.ended, withFilling, fillingVersion, h]

theorem takeAt_ended {s : State} {n : SlotNo} {t : TakeNo} {k : Take} (h : takeAt s n t = some k) (cut : Bool) :
    takeAt (if cut then endCut s n t else s) n t = some (k.ended cut) := by
  cases cut with
  | true => exact takeAt_endCut h
  | false => exact h

theorem endCut_keeps (s : State) (n : SlotNo) (t : TakeNo) : Keeps P s (endCut s n t) := by
  unfold endCut
  split
  · exact .refl s
  · next k present =>
    dsimp only
    split
    · exact .refl s
    · refine (raiseTakeCut_keeps _ n t).after (modTake_keeps fun m _ x hx filled => ?_)
      exact withFilling_filledBy.mpr filled

/-- R71: the take that has ended, filled by no line and in the slot at the front of the recency list; it is not stored yet. -/
def takeLeft (s : State) (n : SlotNo) (t : TakeNo) (cut : Bool) : State :=
  slotToFront (modTake (if cut then endCut s n t else s) n t fun x => { x with fillingLine := none }) n

theorem takeAt_takeLeft {s : State} {n : SlotNo} {t : TakeNo} {k : Take} (h : takeAt s n t = some k) (cut : Bool) :
    takeAt (takeLeft s n t cut) n t = some { k.ended cut with fillingLine := none } := by
  unfold takeLeft
  rw [takeAt_of_slots (slotToFront_slots _ n), takeAt_modTake_same, takeAt_ended h]
  rfl

theorem takeLeft_keeps {s : State} {n : SlotNo} {t : TakeNo} {k : Take} (present : takeAt s n t = some k)
    (h : NotFilled P s n t) (cut : Bool) : Keeps P s (takeLeft s n t cut) := by
  have ended : Keeps P s (if cut then endCut s n t else s) := by
    split
    · exact endCut_keeps s n t
    · exact .refl s
  have unfilled : NotFilled P (if cut then endCut s n t else s) n t := by
    rintro m hm ⟨k', hk', filled⟩
    obtain rfl : k' = k.ended cut := Option.some.inj (hk'.symm.trans (takeAt_ended present cut))
    exact h m hm ⟨k, present, Take.ended_filledBy.mp filled⟩
  exact (slotToFront_keeps _ n).after ((unfilled.modTake_keeps _).after ended)

/-- R71: a first arrival that ends passes the gate. -/
theorem takeEnds_first {s : State} {n : SlotNo} {t : TakeNo} {k : Take} (h : takeAt s n t = some k)
    (first : k.replacement = none) (cut : Bool) : takeEnds s n t cut = gate (takeLeft s n t cut) n t := by
  simp only [takeEnds, h, first, takeLeft]

/-- R71: a substitute that ends is stored. -/
theorem takeEnds_substitute {s : State} {n : SlotNo} {t : TakeNo} {k : Take} {r : Version × Class}
    (h : takeAt s n t = some k) (sub : k.replacement = some r) (cut : Bool) :
    takeEnds s n t cut = storeSubstitute (takeLeft s n t cut) n t := by
  simp only [takeEnds, h, sub, takeLeft]

/-- R71: the end of a take keeps what the other lines fill. -/
theorem takeEnds_keeps {s : State} {n : SlotNo} {t : TakeNo} (h : NotFilled P s n t) (cut : Bool) :
    Keeps P s (takeEnds s n t cut) := by
  cases present : takeAt s n t with
  | none =>
    unfold takeEnds
    simp only [present]
    exact .refl s
  | some k =>
    have left := takeAt_takeLeft present cut
    have unfilled : NotFilled P (takeLeft s n t cut) n t := .of_take fun k' hk' m filled => by
      obtain rfl := Option.some.inj (hk'.symm.trans left)
      exact nomatch filled.line
    cases replacement : k.replacement with
    | none =>
      rw [takeEnds_first present replacement]
      exact (gate_keeps left unfilled).after (takeLeft_keeps present h cut)
    | some r =>
      rw [takeEnds_substitute present replacement]
      exact (storeSubstitute_keeps ⟨_, left, rfl, r.2, Take.ended_replacement replacement cut⟩).after
        (takeLeft_keeps present h cut)

/-! ### A slot allocated, and a story held (R58, R61, R65, R83) -/

/-- Slot `n`, which becomes or stays OCCUPIED, has been written anew, with a key no other slot has; it is held only where
there is room for one more held slot. -/
structure WrittenSlot (n : SlotNo) (s u : State) : Prop where
  others : ∀ m : SlotNo, m ≠ n → u.slots[m] = s.slots[m]
  occupied : u.slots[n].state = .occupied
  key : u.slots[n].key ≠ none
  distinct : ∀ m : SlotNo, m ≠ n → s.slots[m].state = .occupied → s.slots[m].key ≠ u.slots[n].key
  held : u.slots[n].held = true → s.slots[n].held = true ∨ heldCount s < 32
  recency : u.recency.Perm (List.finRange 40)

theorem WrittenSlot.heldCount_le {n : SlotNo} {s u : State} (w : WrittenSlot n s u) (h : heldCount s ≤ 32) :
    heldCount u ≤ 32 := by
  have nodup : ((List.finRange 40).filter fun m => u.slots[m].held).Nodup := (List.nodup_finRange 40).filter _
  have at_n : ∀ m, u.slots[m].held = true → m = n ∨ s.slots[m].held = true := by
    intro m hm
    by_cases e : m = n
    · exact Or.inl e
    · exact Or.inr (w.others m e ▸ hm)
  by_cases room : heldCount s < 32
  · have sub : (List.finRange 40).filter (fun m => u.slots[m].held) ⊆
        n :: (List.finRange 40).filter fun m => s.slots[m].held := by
      intro m hm
      simp only [List.mem_filter, List.mem_finRange, true_and, List.mem_cons] at hm ⊢
      exact at_n m hm
    have le : heldCount u ≤ heldCount s + 1 := (nodup.subperm sub).length_le
    omega
  · refine Nat.le_trans (heldCount_le_of_imp fun m hm => ?_) h
    obtain rfl | already := at_n m hm
    · exact (w.held hm).resolve_right room
    · exact already

theorem WrittenSlot.sound {n : SlotNo} {s u : State} (w : WrittenSlot n s u) (h : SlotsSound s) : SlotsSound u where
  free m e := by
    by_cases hm : m = n
    · subst hm
      rw [w.occupied] at e
      cases e
    · rw [w.others m hm] at e ⊢
      exact h.free m e
  keyed m e := by
    by_cases hm : m = n
    · subst hm
      exact w.key
    · rw [w.others m hm] at e ⊢
      exact h.keyed m e
  distinct i j ne ei ej := by
    by_cases hi : i = n
    · subst hi
      rw [w.others j ne.symm] at ej ⊢
      exact (w.distinct j ne.symm ej).symm
    · rw [w.others i hi] at ei ⊢
      by_cases hj : j = n
      · subst hj
        exact w.distinct i hi ei
      · rw [w.others j hj] at ej ⊢
        exact h.distinct i j ne ei ej
  held := w.heldCount_le h.held
  recency := w.recency

theorem Keeps.of_written {n : SlotNo} {s u : State} (w : SlotsSound s → WrittenSlot n s u)
    (framers : ∀ m, P m → u.lines[m].framer = s.lines[m].framer)
    (fills : SlotsSound s → ∀ m (t : TakeNo) k, s.slots[n].takes[t] = some k → FilledBy m k →
      ∃ k', u.slots[n].takes[t] = some k' ∧ FilledBy m k') : Keeps P s u := by
  intro sound
  have written := w sound
  refine ⟨written.sound sound, fun m hm => ⟨framers m hm, fun j t h => ?_⟩⟩
  obtain ⟨k, hk, filled⟩ := h
  by_cases e : j = n
  · subst e
    exact fills sound m t k hk filled
  · exact ⟨k, by unfold takeAt; rw [written.others j e]; exact hk, filled⟩

theorem lookup_some {s : State} {k : Key} {n : SlotNo} (h : lookup s k = some n) :
    s.slots[n].state = .occupied ∧ s.slots[n].key = some k := by
  have found := List.find?_some h
  simpa using found

theorem lookup_none {s : State} {k : Key} (h : lookup s k = none) (n : SlotNo) (e : s.slots[n].state = .occupied) :
    s.slots[n].key ≠ some k := by
  have absent : s.slots[n].state = .occupied → s.slots[n].key ≠ some k := by
    simpa using List.find?_eq_none.mp h n (List.mem_finRange n)
  exact absent e

theorem leastRecent_some {s : State} {p : Slot → Bool} {n : SlotNo} (h : leastRecent s p = some n) : p s.slots[n] = true := by
  unfold leastRecent at h
  have mem := List.mem_of_getLast? h
  exact (List.mem_filter.mp mem).2

theorem slotToAllocate_some {s : State} {n : SlotNo} (h : slotToAllocate s = some n) :
    s.slots[n].state = .free ∨ evictable s.slots[n] = true := by
  unfold slotToAllocate at h
  split at h
  · next m free =>
    obtain rfl := Option.some.inj h
    exact Or.inl (of_decide_eq_true (leastRecent_some free))
  · exact Or.inr (leastRecent_some h)

theorem mem_presentTakes {x : Slot} {t : TakeNo} {k : Take} (h : x.takes[t] = some k) : (t, k) ∈ presentTakes x :=
  List.mem_filterMap.mpr ⟨t, List.mem_finRange t, by rw [h]; rfl⟩

/-- A busy take is one that is filled or waits; a story that may be evicted has none. -/
theorem evictable_unfilled {x : Slot} {t : TakeNo} {k : Take} (h : evictable x = true) (hk : x.takes[t] = some k)
    (m : LineNo) : ¬ FilledBy m k := by
  intro filled
  simp only [evictable, Bool.and_eq_true, List.all_eq_true] at h
  obtain ⟨⟨-, idle⟩, -⟩ := h
  have released := idle _ (mem_presentTakes hk)
  have filling := filled.filling
  simp only [busyTake, Bool.not_eq_true', decide_eq_false_iff_not, not_not] at released
  simp [fillingTake, released] at filling

theorem evictable_notHeld {x : Slot} (h : evictable x = true) : x.held = false := by
  simp only [evictable, Bool.and_eq_true, Bool.not_eq_true'] at h
  exact h.1.1.2

/-- The slot that would be allocated is not held, and no line fills a take of it. -/
theorem slotToAllocate_idle {s : State} (sound : SlotsSound s) {n : SlotNo} (h : slotToAllocate s = some n) :
    ∀ m (t : TakeNo) k, s.slots[n].takes[t] = some k → ¬ FilledBy m k := by
  intro m t k hk
  obtain free | evict := slotToAllocate_some h
  · exact absurd (sound.free n free) (ne_freed_of_take hk)
  · exact evictable_unfilled evict hk m

/-- R65: the allocated slot, as it is written afterwards, takes no other slot's key. -/
theorem allocate_written {s : State} {n : SlotNo} {k : Key} (missing : lookup s k = none)
    {f : Slot → Slot} {y : Slot} (y_eq : y = f { Slot.freed with state := .occupied, key := some k })
    (state : y.state = .occupied) (key : y.key = some k) (held : y.held = true → heldCount s < 32) {u : State}
    (slots : u.slots = (modSlot (allocate s n k) n f).slots) (recency : u.recency.Perm (List.finRange 40)) :
    WrittenSlot n s u := by
  have here : u.slots[n] = y := by
    rw [slots, modSlot_slots, modAt_same, y_eq]
    exact congrArg f (modAt_same s.slots n _)
  have others : ∀ m : SlotNo, m ≠ n → u.slots[m] = s.slots[m] := by
    intro m e
    rw [slots, modSlot_slots, modAt_other _ _ e]
    exact modAt_other s.slots _ e
  refine ⟨others, by rw [here, state], by rw [here, key]; exact Option.some_ne_none k, fun m _ hm => ?_,
    fun h => Or.inr (held (here ▸ h)), recency⟩
  rw [here, key]
  exact lookup_none missing m hm

/-! ### Opening a take (R66–R68) -/

theorem withLast_same (x : Slot) (h : CopyHeader) : (withLast x h).state = x.state ∧ (withLast x h).key = x.key ∧
    (withLast x h).held = x.held ∧ (withLast x h).takes = x.takes := by
  unfold withLast
  split <;> exact ⟨rfl, rfl, rfl, rfl⟩

/-- R67. -/
theorem openFirst_same (l : LineNo) (h : CopyHeader) (x : Slot) : (openFirst l h x).state = x.state ∧
    (openFirst l h x).key = x.key ∧ (openFirst l h x).held = x.held ∧
    (openFirst l h x).takes = put x.takes h.take (some (firstTake l h)) := by
  unfold openFirst
  dsimp only
  obtain ⟨state, key, held, takes⟩ := withLast_same
    { (if (presentTakes x).isEmpty then { x with category := some h.category, slug := h.slug } else x : Slot) with
      takes := put (if (presentTakes x).isEmpty then { x with category := some h.category, slug := h.slug } else x : Slot).takes
        h.take (some (firstTake l h)) } h
  rw [state, key, held, takes]
  split <;> exact ⟨rfl, rfl, rfl, rfl⟩

theorem firstTake_filledBy (l : LineNo) (h : CopyHeader) : FilledBy l (firstTake l h) := ⟨rfl, rfl⟩

/-- R67: a first arrival joins the takes of a story that is there. -/
theorem openFirst_keeps {s : State} {n : SlotNo} {h : CopyHeader} (l : LineNo) (story : s.slots[n].state = .occupied)
    (absent : takeAt s n h.take = none) : Keeps P s (modSlot s n (openFirst l h)) := by
  obtain ⟨state, key, held, takes⟩ := openFirst_same l h s.slots[n]
  refine modSlot_keeps (fun _ => ⟨state, key, held.symm.trans, fun freed => ?_⟩) fun _ m _ j k hk filled => ?_
  · rw [freed] at story
    cases story
  · have other : j ≠ h.take := by
      rintro rfl
      exact nomatch hk.symm.trans absent
    exact ⟨k, by rw [takes, put_other _ _ other]; exact hk, filled⟩

/-- R68: the take as a substitute opened by line `l` leaves it. -/
def openedOver (l : LineNo) (h : CopyHeader) (k : Take) : Take :=
  { k with state := .filling, fillingLine := some l, replacement := some (Version.empty, h.cls), waitTimer := none }

theorem openSubstitute_same (l : LineNo) (h : CopyHeader) (x : Slot) : (openSubstitute l h x).state = x.state ∧
    (openSubstitute l h x).key = x.key ∧ (openSubstitute l h x).held = x.held ∧
    (openSubstitute l h x).takes = modAt x.takes h.take (Option.map (openedOver l h)) := withLast_same _ h

theorem openedOver_filledBy (l : LineNo) (h : CopyHeader) (k : Take) : FilledBy l (openedOver l h k) := ⟨rfl, rfl⟩

/-- R68: a substitute is opened over a take that no line fills. -/
theorem openSubstitute_keeps {s : State} {n : SlotNo} {h : CopyHeader} {k : Take} (l : LineNo)
    (present : takeAt s n h.take = some k) (stored : storedTake k = true) :
    Keeps P s (modSlot s n (openSubstitute l h)) := by
  obtain ⟨state, key, held, takes⟩ := openSubstitute_same l h s.slots[n]
  refine modSlot_keeps (fun _ => ⟨state, key, held.symm.trans, fun freed => absurd freed (ne_freed_of_take present)⟩)
    fun _ m _ j x hx filled => ?_
  have other : j ≠ h.take := by
    rintro rfl
    obtain rfl : x = k := Option.some.inj (hx.symm.trans present)
    exact filled.not_stored stored
  exact ⟨x, by rw [takes, modAt_other _ _ other]; exact hx, filled⟩

theorem modLine_keeps {l : LineNo} (hl : ¬ P l) (s : State) (f : Line → Line) : Keeps P s (modLine s l f) :=
  .of_eq rfl rfl fun m hm => by
    have other : m ≠ l := by
      rintro rfl
      exact hl hm
    rw [modLine_lines, modAt_other _ _ other]

/-- R65–R68: a hand-over keeps what the other lines fill. -/
theorem handOver_keeps {l : LineNo} (hl : ¬ P l) (s : State) (h : CopyHeader) : Keeps P s (handOver s l h).1 := by
  unfold handOver
  split
  · next missing =>
    split
    · exact (modLine_keeps hl _ _).after (raise_report s _ _).keeps
    · next n slot =>
      obtain ⟨state, key, held, -⟩ := openFirst_same l h { Slot.freed with state := .occupied, key := some h.key }
      refine .of_written (n := n) (fun sound => ?_) (fun _ _ => rfl) fun sound m t k hk filled =>
        absurd filled (slotToAllocate_idle sound slot m t k hk)
      refine allocate_written missing rfl state key (fun yes => ?_) rfl (toFront_perm sound.recency n)
      rw [held] at yes
      cases yes
  · next n found =>
    split
    · exact (modLine_keeps hl _ _).after (raise_report s _ _).keeps
    · split
      · next absent => exact openFirst_keeps l (lookup_some found).1 absent
      · next k present =>
        split
        · next sub =>
          rw [Bool.and_eq_true] at sub
          exact openSubstitute_keeps l present sub.2
        · exact modLine_keeps hl _ _

/-- R67, R68: the take that a hand-over opens is filled by the line. -/
theorem handOver_opened {s : State} {l : LineNo} {h : CopyHeader} {n : SlotNo} {t : TakeNo}
    (opened : (handOver s l h).2 = .opened n t) : TakeIs n t (FilledBy l) (handOver s l h).1 := by
  have first : ∀ w : State, TakeIs n h.take (FilledBy l) (modSlot w n (openFirst l h)) := by
    intro w
    obtain ⟨-, -, -, takes⟩ := openFirst_same l h w.slots[n]
    exact ⟨firstTake l h, by rw [takeAt_modSlot, takes, put_same], firstTake_filledBy l h⟩
  generalize answer : handOver s l h = r at opened ⊢
  unfold handOver at answer
  split at answer
  · split at answer
    · subst answer
      cases opened
    · subst answer
      cases opened
      exact first _
  · split at answer
    · subst answer
      cases opened
    · split at answer
      · subst answer
        cases opened
        exact first _
      · next k present =>
        split at answer
        · subst answer
          cases opened
          obtain ⟨-, -, -, takes⟩ := openSubstitute_same l h s.slots[n]
          refine ⟨openedOver l h k, ?_, openedOver_filledBy l h k⟩
          rw [takeAt_modSlot, takes, modAt_same]
          exact congrArg (Option.map _) present
        · subst answer
          cases opened

/-! ### Messages and framers -/

theorem modMgmt_keeps (s : State) (f : Mgmt → Mgmt) : Keeps P s (modMgmt s f) := .of_eq_lines rfl rfl rfl

theorem placeReply_keeps (s : State) (t : Text) : Keeps P s (placeReply s t) := (placeReply_report s t).keeps

theorem dropMessage_keeps (s : State) : Keeps P s (dropMessage s) := by
  unfold dropMessage
  split
  · exact modMgmt_keeps s _
  · exact (modMgmt_keeps _ _).after (placeReply_keeps s _)

theorem messageClosed_keeps (s : State) : Keeps P s (messageClosed s) := by
  have executing : Keeps P s (modMgmt s fun m => { m with buffer := .executing }) := modMgmt_keeps s _
  unfold messageClosed
  dsimp only
  split
  · exact (modMgmt_keeps _ _).after executing
  · split
    · exact (modMgmt_keeps _ _).after ((placeReply_keeps _ _).after executing)
    · split
      · exact (modMgmt_keeps _ _).after ((placeReply_keeps _ _).after ((raise_report _ _ _).keeps.after executing))
      · exact (modMgmt_keeps _ _).after executing

theorem passOn_keeps (s : State) (l : LineNo) (h : House) : Keeps P s (passOn s l h) := by
  unfold passOn
  dsimp only
  split
  · split
    · exact writeChar_keeps s _ _ h
    · exact .refl s
  · split
    · exact modMgmt_keeps s _
    · split
      · exact .refl s
      · exact modMgmt_keeps s _
  · exact .refl s

theorem passSlashes_keeps (s : State) (l : LineNo) (j : Nat) : Keeps P s (passSlashes s l j) := by
  induction j generalizing s with
  | zero => exact .refl s
  | succ j ih => exact (ih _).after (passOn_keeps s l _)

/-- A take written anew, filled by no other line than before. -/
theorem NotFilled.of_written {s u : State} {n : SlotNo} {t : TakeNo} {k k' : Take} (h : NotFilled P s n t)
    (before : takeAt s n t = some k) (after : takeAt u n t = some k') (g : ∀ m, FilledBy m k' → FilledBy m k) :
    NotFilled P u n t := by
  rintro m hm ⟨x, hx, filled⟩
  obtain rfl : x = k' := Option.some.inj (hx.symm.trans after)
  exact h m hm ⟨k, before, g m filled⟩

/-- A character written leaves a take to the line that fills it. -/
theorem writeChar_notFilled {s : State} {n : SlotNo} {t : TakeNo} (h : NotFilled P s n t) (x : House) :
    NotFilled P (writeChar s n t x) n t := by
  unfold writeChar
  split
  · exact h
  · next k present =>
    split
    · next filling =>
      dsimp only
      split
      · split
        · refine h.of_written present ((takeAt_modSlot s n _ t).trans (put_same _ t _)) ?_
          exact fun m => withFilling_filledBy.mp
        · refine NotFilled.delivery (h.of_written present (takeAt_modTake_same s n t _ |>.trans (congrArg _ present)) ?_)
            (raiseTakeCut_report _ n t).delivery
          exact fun m filled => ⟨by simp [fillingTake, filling], (withFilling_fillingLine k _).symm.trans filled.line⟩
      · refine h.of_written present (takeAt_modTake_same s n t _ |>.trans (congrArg _ present)) ?_
        exact fun m => withFilling_filledBy.mp
    · exact h

theorem passSlashes_notFilled {l : LineNo} {n : SlotNo} {t : TakeNo} (j : Nat) {s : State}
    (hs : s.lines[l].framer.state = .copyBody) (hr : s.lines[l].framer.takeRef = some (n, t)) (h : NotFilled P s n t) :
    NotFilled P (passSlashes s l j) n t := by
  induction j generalizing s with
  | zero => exact h
  | succ j ih =>
    have lines := (passOn_same s l houseSlash).lines
    refine ih (by rw [lines]; exact hs) (by rw [lines]; exact hr) ?_
    rw [passOn_copyBody hs hr]
    exact writeChar_notFilled h _

/-- The take that the framer of line `l` names is filled by no line that satisfies `P`. -/
def OwnTake (P : LineNo → Prop) (s : State) (l : LineNo) : Prop :=
  ∀ n t, s.lines[l].framer.takeRef = some (n, t) → NotFilled P s n t

theorem endMessageCut_keeps {s : State} {l : LineNo} (own : OwnTake P s l) : Keeps P s (endMessageCut s l) := by
  unfold endMessageCut
  dsimp only
  split
  · next body =>
    split
    · next n t ref =>
      exact (takeEnds_keeps (passSlashes_notFilled _ body ref (own n t ref)) true).after (passSlashes_keeps s l _)
    · exact passSlashes_keeps s l _
  · exact (dropMessage_keeps _).after (passSlashes_keeps s l _)
  · split
    · exact .refl s
    · exact dropMessage_keeps s
  · exact .refl s

section OneLine

variable {l : LineNo} (hl : ¬ P l)
include hl

theorem modFramer_keeps (s : State) (f : Framer → Framer) : Keeps P s (modFramer s l f) := modLine_keeps hl s _

theorem modLineCounters_keeps (s : State) (f : LineCounters → LineCounters) : Keeps P s (modLineCounters s l f) :=
  modLine_keeps hl s _

theorem toHunt_keeps (s : State) : Keeps P s (toHunt s l) := modFramer_keeps hl s _

theorem toDiscard_keeps (s : State) (b : Bool) : Keeps P s (toDiscard s l b) := modFramer_keeps hl s _

theorem framerAbandons_keeps {s : State} (own : OwnTake P s l) : Keeps P s (framerAbandons s l) :=
  (toHunt_keeps hl _).after (endMessageCut_keeps own)

theorem askBuffer_keeps (s : State) : Keeps P s (askBuffer s l).1 := by
  unfold askBuffer
  split
  · exact modMgmt_keeps s fun m => { m.released with buffer := .opened, holder := some l }
  · exact (placeReply_keeps _ _).after (modLineCounters_keeps hl s _)

theorem takeOpening_keeps (s : State) (k : MessageKind) : Keeps P s (takeOpening s l k) := by
  have taken := fun f g => (modFramer_keeps hl (modLineCounters s l g) f).after (modLineCounters_keeps hl s g)
  unfold takeOpening
  dsimp only
  split
  · exact (modFramer_keeps hl _ _).after (taken _ _)
  · split
    · exact (modFramer_keeps hl _ _).after ((askBuffer_keeps hl _).after (taken _ _))
    · exact (toDiscard_keeps hl _ _).after ((askBuffer_keeps hl _).after (taken _ _))

theorem huntChar_keeps (s : State) (h : House) : Keeps P s (huntChar s l h) := by
  unfold huntChar
  dsimp only
  split
  · split
    · exact modLineCounters_keeps hl s _
    · exact modFramer_keeps hl s _
  · split
    · exact takeOpening_keeps hl s _
    · split
      · exact takeOpening_keeps hl s _
      · exact (modLineCounters_keeps hl _ _).after (modFramer_keeps hl s _)

theorem headerFault_keeps (s : State) (b : Bool) :
    Keeps P s (copyHeaderFault s l b) ∧ Keeps P s (managementHeaderFault s l b) :=
  ⟨(toDiscard_keeps hl _ _).after ((modLineCounters_keeps hl _ _).after (raise_report s _ _).keeps),
    (toDiscard_keeps hl _ _).after ((dropMessage_keeps _).after (raise_report s _ _).keeps)⟩

theorem headerEnds_keeps (s : State) : Keeps P s (headerEnds s l) := by
  unfold headerEnds
  dsimp only
  split
  · split
    · exact (headerFault_keeps hl s true).1
    · unfold handCopyHeader
      dsimp only
      split
      · exact (modFramer_keeps hl _ _).after (handOver_keeps hl s _)
      · exact (toDiscard_keeps hl _ _).after (handOver_keeps hl s _)
  · split
    · exact (headerFault_keeps hl s true).2
    · exact (modFramer_keeps hl (headerRead s _ _) _).after (modMgmt_keeps s _)

theorem headerChar_keeps (s : State) (h : House) : Keeps P s (headerChar s l h) := by
  unfold headerChar
  split
  · exact headerEnds_keeps hl s
  · split
    · exact .refl s
    · split
      · exact modFramer_keeps hl s _
      · unfold headerFault
        split
        · exact (headerFault_keeps hl s false).1
        · exact (headerFault_keeps hl s false).2

theorem takeClosing_keeps {s : State} (own : OwnTake P s l) : Keeps P s (takeClosing s l) := by
  have hunting := toHunt_keeps hl s
  unfold takeClosing
  dsimp only
  split
  · split
    · next n t ref =>
      have unfilled : NotFilled P (toHunt s l) n t := own n t ref
      exact (takeEnds_keeps unfilled false).after hunting
    · exact hunting
  · exact (messageClosed_keeps _).after hunting
  · exact hunting

theorem openingInBody_keeps {s : State} (own : OwnTake P s l) (k : MessageKind) : Keeps P s (openingInBody id s l k) := by
  have cleared : OwnTake P (modFramer s l fun f => { f with held := 0 }) l := fun n t ref =>
    own n t (by rw [modFramer, modLine_line] at ref; exact ref)
  simp only [openingInBody, id, ite_self]
  exact (takeOpening_keeps hl _ k).after ((endMessageCut_keeps cleared).after (modFramer_keeps hl s _))

theorem decide27_keeps (s : State) (j : Nat) (h : House) : Keeps P s (decide27 s l j h) :=
  (modFramer_keeps hl _ _).after ((passOn_keeps _ l h).after (passSlashes_keeps s l j))

theorem bodyChar_keeps {s : State} (own : OwnTake P s l) (h : House) : Keeps P s (bodyChar id s l h) := by
  unfold bodyChar
  dsimp only
  split
  · split
    · exact modFramer_keeps hl s _
    · exact (modFramer_keeps hl _ _).after (passOn_keeps s l h)
  · split
    · split
      · exact modFramer_keeps hl s _
      · exact decide27_keeps hl s 1 h
    · split
      · exact openingInBody_keeps hl own _
      · split
        · exact openingInBody_keeps hl own _
        · split
          · exact takeClosing_keeps hl own
          · exact decide27_keeps hl s 2 h

/-- A character keeps what the other lines fill, the take of its own line being filled by none of them. -/
theorem framerChar_keeps {s : State} (own : OwnTake P s l) (h : House) : Keeps P s (framerChar id s l h) := by
  unfold framerChar
  split
  · exact huntChar_keeps hl s h
  · exact headerChar_keeps hl s h
  · exact bodyChar_keeps hl own h
  · exact bodyChar_keeps hl own h
  · exact bodyChar_keeps hl own h
  · exact .refl s

end OneLine

end Sys2Proof.Machine
namespace Sys2Proof.Machine

open Sys2Proof

/-! ### What a step upholds -/

/-- R17, R60 of one line: the take its framer names is being filled by it, in COPY-BODY. -/
def OwnSound (s : State) (l : LineNo) : Prop :=
  ∀ n t, s.lines[l].framer.takeRef = some (n, t) → s.lines[l].framer.state = .copyBody ∧ TakeIs n t (FilledBy l) s

theorem framersSound_iff {s : State} : FramersSound s ↔ ∀ l, OwnSound s l := by
  refine forall_congr' fun l => forall_congr' fun n => forall_congr' fun t => imp_congr_right fun _ => and_congr_right fun _ => ?_
  exact exists_congr fun k => and_congr_right fun _ => ⟨fun ⟨a, b⟩ => ⟨a, b⟩, fun ⟨a, b⟩ => ⟨a, b⟩⟩

/-- The slots stay sound, and with them the framers. -/
structure Upholds (s u : State) : Prop where
  slots : SlotsSound s → SlotsSound u
  framers : SlotsSound s → FramersSound s → FramersSound u

theorem Upholds.refl (s : State) : Upholds s s := ⟨id, fun _ => id⟩

theorem Upholds.trans {s t u : State} (h : Upholds s t) (g : Upholds t u) : Upholds s u :=
  ⟨fun a => g.slots (h.slots a), fun a b => g.framers (h.slots a) (h.framers a b)⟩

/-- `trans` with the later change first. -/
theorem Upholds.after {s t u : State} (g : Upholds t u) (h : Upholds s t) : Upholds s u := h.trans g

theorem foldl_upholds {α : Type} (f : State → α → State) (h : ∀ s a, Upholds s (f s a)) (l : List α) (s : State) :
    Upholds s (l.foldl f s) := foldl_keeps Upholds .refl .trans f h l s

/-- The line that a sound framer's take is filled by is its own. -/
theorem OwnSound.kept {s u : State} {l : LineNo} (h : OwnSound s l) (framer : u.lines[l].framer = s.lines[l].framer)
    (fills : ∀ n t, TakeIs n t (FilledBy l) s → TakeIs n t (FilledBy l) u) : OwnSound u l := by
  intro n t ref
  rw [framer] at ref ⊢
  exact ⟨(h n t ref).1, fills n t (h n t ref).2⟩

/-- A change that keeps what every line fills. -/
theorem Keeps.upholds {s u : State} (h : Keeps (fun _ => True) s u) : Upholds s u := by
  refine ⟨fun sound => (h sound).1, fun sound framers => framersSound_iff.mpr fun l => ?_⟩
  obtain ⟨framer, fills⟩ := (h sound).2 l trivial
  exact (framersSound_iff.mp framers l).kept framer fills

theorem OwnSound.of_none {s : State} {l : LineNo} (h : s.lines[l].framer.takeRef = none) : OwnSound s l :=
  fun _ _ ref => nomatch ref.symm.trans h

theorem FramersSound.takeRef_none {s : State} (h : FramersSound s) {l : LineNo} (e : s.lines[l].framer.state ≠ .copyBody) :
    s.lines[l].framer.takeRef = none := by
  cases ref : s.lines[l].framer.takeRef with
  | none => rfl
  | some r => exact absurd (h l r.1 r.2 ref).1 e

/-- What no line need keep. -/
theorem OwnTake.of_false (s : State) (l : LineNo) : OwnTake (fun _ => False) s l := fun _ _ _ _ no => no.elim

/-- With sound framers, the take that a framer names is filled by no other line. -/
theorem FramersSound.ownTake {s : State} (h : FramersSound s) (l : LineNo) : OwnTake (· ≠ l) s l := by
  rintro n t ref m hm ⟨k, hk, filled⟩
  obtain ⟨-, k', hk', -, line⟩ := h l n t ref
  obtain rfl : k = k' := Option.some.inj (hk.symm.trans hk')
  exact hm (Option.some.inj (filled.line.symm.trans line))

/-- A change on line `l` that keeps what the other lines fill, and leaves its own framer sound. -/
theorem Upholds.of_line {s u : State} (l : LineNo)
    (keeps : ∀ P : LineNo → Prop, ¬ P l → OwnTake P s l → Keeps P s u)
    (own : SlotsSound s → FramersSound s → OwnSound u l) : Upholds s u := by
  refine ⟨fun sound => (keeps (fun _ => False) id (.of_false s l) sound).1, fun sound framers => framersSound_iff.mpr ?_⟩
  intro m
  by_cases e : m = l
  · subst e
    exact own sound framers
  · obtain ⟨framer, fills⟩ := (keeps (· ≠ l) (fun ne => ne rfl) (framers.ownTake l) sound).2 m e
    exact (framersSound_iff.mp framers m).kept framer fills

/-- A change of a line that leaves its framer. -/
theorem modLine_upholds (s : State) (l : LineNo) (f : Line → Line) (h : ∀ x, (f x).framer = x.framer) :
    Upholds s (modLine s l f) :=
  Keeps.upholds (.of_eq rfl rfl fun m _ => modAt_keeps s.lines l m f Line.framer h)

theorem modMgmt_upholds (s : State) (f : Mgmt → Mgmt) : Upholds s (modMgmt s f) := (modMgmt_keeps s f).upholds

/-! ### The framer's own take -/

theorem modFramer_line (s : State) (l : LineNo) (f : Framer → Framer) :
    (modFramer s l f).lines[l].framer = f s.lines[l].framer := by rw [modFramer, modLine_line]

theorem modLineCounters_framer (s : State) (l : LineNo) (f : LineCounters → LineCounters) :
    (modLineCounters s l f).lines[l].framer = s.lines[l].framer := by rw [modLineCounters, modLine_line]

theorem toDiscard_takeRef (s : State) (l : LineNo) (b : Bool) : (toDiscard s l b).lines[l].framer.takeRef = none := by
  rw [toDiscard, modFramer_line]

/-- R159: a grant of the buffer leaves the lines. -/
theorem askBuffer_granted_lines {s : State} {l : LineNo} (h : (askBuffer s l).2 = true) :
    (askBuffer s l).1.lines = s.lines := by
  unfold askBuffer at h ⊢
  split at h
  · next free => rw [if_pos free]; rfl
  · cases h

/-- R19: an opening mark leaves the framer without a take. -/
theorem takeOpening_takeRef (s : State) (l : LineNo) (k : MessageKind) :
    (takeOpening s l k).lines[l].framer.takeRef = none := by
  unfold takeOpening
  dsimp only
  split
  · rw [modFramer_line, modFramer_line]
  · split
    · next granted =>
      rw [modFramer_line, askBuffer_granted_lines granted, modFramer_line]
    · exact toDiscard_takeRef _ l true

theorem takeOpening_upholds (s : State) (l : LineNo) (k : MessageKind) : Upholds s (takeOpening s l k) :=
  .of_line l (fun _ hl _ => takeOpening_keeps hl s k) fun _ _ => .of_none (takeOpening_takeRef s l k)

theorem huntChar_takeRef {s : State} {l : LineNo} (h : House) (absent : s.lines[l].framer.takeRef = none) :
    (huntChar s l h).lines[l].framer.takeRef = none := by
  unfold huntChar
  dsimp only
  split
  · split
    · rw [countStray, modLineCounters_framer, absent]
    · rw [modFramer_line, absent]
  · split
    · exact takeOpening_takeRef s l _
    · split
      · exact takeOpening_takeRef s l _
      · rw [countStray, modLineCounters_framer, modFramer_line, absent]

/-- R24: the take that a header opens is filled by its line. -/
theorem headerEnds_own {s : State} {l : LineNo} (absent : s.lines[l].framer.takeRef = none) : OwnSound (headerEnds s l) l := by
  unfold headerEnds
  dsimp only
  split
  · split
    · exact .of_none (toDiscard_takeRef _ l true)
    · next h _ =>
      unfold handCopyHeader
      dsimp only
      split
      · next n t answer =>
        intro n' t' ref
        rw [modFramer_line] at ref ⊢
        cases ref
        exact ⟨rfl, handOver_opened answer⟩
      · exact .of_none (toDiscard_takeRef _ l true)
  · split
    · exact .of_none (toDiscard_takeRef _ l true)
    · refine .of_none ?_
      rw [modFramer_line]
      exact absent

theorem headerChar_own {s : State} {l : LineNo} (h : House) (absent : s.lines[l].framer.takeRef = none) :
    OwnSound (headerChar s l h) l := by
  unfold headerChar
  split
  · exact headerEnds_own absent
  · split
    · exact .of_none absent
    · split
      · exact .of_none (by rw [modFramer_line, absent])
      · unfold headerFault
        split
        · exact .of_none (toDiscard_takeRef _ l false)
        · exact .of_none (toDiscard_takeRef _ l false)

theorem takeClosing_takeRef (s : State) (l : LineNo) : (takeClosing s l).lines[l].framer.takeRef = none := by
  have hunting : (toHunt s l).lines[l].framer.takeRef = none := by rw [toHunt, modFramer_line]; rfl
  unfold takeClosing
  dsimp only
  split
  · split
    · rw [(takeEnds_same _ _ _ _).lines, hunting]
    · exact hunting
  · rw [(messageClosed_same _).lines, hunting]
  · exact hunting

/-- What is passed on as text leaves the framer its take. -/
theorem OwnSound.text {s w : State} {l : LineNo} {f : Framer → Framer} (h : OwnSound s l)
    (passed : Keeps (fun _ => True) s w) (sound : SlotsSound s)
    (same : ∀ x, (f x).state = x.state ∧ (f x).takeRef = x.takeRef) : OwnSound (modFramer w l f) l := by
  obtain ⟨framer, fills⟩ := (passed sound).2 l trivial
  intro n t ref
  rw [modFramer_line] at ref ⊢
  rw [(same _).2, framer] at ref
  rw [(same _).1, framer]
  exact ⟨(h n t ref).1, fills n t (h n t ref).2⟩

theorem bodyChar_own {s : State} {l : LineNo} (h : House) (sound : SlotsSound s) (own : OwnSound s l) :
    OwnSound (bodyChar id s l h) l := by
  have decided : ∀ j, OwnSound (decide27 s l j h) l := fun j =>
    own.text ((passOn_keeps _ l h).after (passSlashes_keeps s l j)) sound fun _ => ⟨rfl, rfl⟩
  unfold bodyChar
  dsimp only
  split
  · split
    · exact own.text (.refl s) sound fun _ => ⟨rfl, rfl⟩
    · exact own.text (passOn_keeps s l h) sound fun _ => ⟨rfl, rfl⟩
  · split
    · split
      · exact own.text (.refl s) sound fun _ => ⟨rfl, rfl⟩
      · exact decided 1
    · split
      · exact .of_none (takeOpening_takeRef _ l _)
      · split
        · exact .of_none (takeOpening_takeRef _ l _)
        · split
          · exact .of_none (takeClosing_takeRef s l)
          · exact decided 2

theorem framerChar_own {s : State} {l : LineNo} (h : House) (sound : SlotsSound s) (framers : FramersSound s) :
    OwnSound (framerChar id s l h) l := by
  have own := framersSound_iff.mp framers l
  unfold framerChar
  split
  · next hunt => exact .of_none (huntChar_takeRef h (framers.takeRef_none (by rw [hunt]; decide)))
  · next header => exact headerChar_own h (framers.takeRef_none (by rw [header]; decide))
  · exact bodyChar_own h sound own
  · exact bodyChar_own h sound own
  · exact bodyChar_own h sound own
  · exact own

theorem framerChar_upholds (s : State) (l : LineNo) (h : House) : Upholds s (framerChar id s l h) :=
  .of_line l (fun _ hl own => framerChar_keeps hl own h) fun sound framers => framerChar_own h sound framers

/-! ### Characters from the receivers -/

theorem modReceiver_upholds (s : State) (l : LineNo) (f : Receiver → Receiver) : Upholds s (modReceiver s l f) :=
  modLine_upholds s l _ (by intro x; rfl)

theorem modLineCounters_upholds (s : State) (l : LineNo) (f : LineCounters → LineCounters) :
    Upholds s (modLineCounters s l f) := modLine_upholds s l _ (by intro x; rfl)

theorem reloadSilence_upholds (s : State) (l : LineNo) : Upholds s (reloadSilence s l) :=
  modLine_upholds s l _ (by intro x; rfl)

/-- R8: what the framer upholds the character does. -/
theorem goodCharacter_upholds {between : State → State} {l : LineNo} (h : ∀ s x, Upholds s (framerChar between s l x))
    (s : State) (code : LineCode) : Upholds s (goodCharacter between s l code) := by
  have received : Upholds s (receiveCode between s l code) := by
    unfold receiveCode
    dsimp only
    split
    · exact (h _ _).after (modLine_upholds s l _ (by intro x; rfl))
    · exact modLine_upholds s l _ (by intro x; rfl)
  exact (modLine_upholds _ l _ (by intro x; rfl)).after ((reloadSilence_upholds _ l).after received)

theorem openedByAnother_upholds (l : LineNo) (s : State) (i : Instr) : Upholds s (openedByAnother l s i) := by
  unfold openedByAnother
  split
  · next m samples =>
    dsimp only
    split
    · exact goodCharacter_upholds (fun s x => framerChar_upholds s m x) s _
    · exact .refl s
  · exact .refl s

theorem betweenDropAndRequest_upholds (l : LineNo) (s : State) : Upholds s (betweenDropAndRequest l s) :=
  (foldl_upholds _ (openedByAnother_upholds l) _ { s with meanwhile := s.meanwhile.tail }).after
    (Keeps.upholds (.of_eq_lines rfl rfl rfl))

/-- R31: at a management opening in MANAGE-BODY the message is dropped, other lines may come, and the opening is taken. -/
theorem framerChar_between_upholds (l : LineNo) (s : State) (h : House) :
    Upholds s (framerChar (betweenDropAndRequest l) s l h) := by
  by_cases drop : s.lines[l].framer.state = .manageBody ∧ s.lines[l].framer.held = 2 ∧ h = ch 'M'
  · obtain ⟨body, held, mark⟩ := drop
    have opening : framerChar (betweenDropAndRequest l) s l h =
        takeOpening (betweenDropAndRequest l (endMessageCut (modFramer s l fun f => { f with held := 0 }) l)) l .management := by
      simp only [framerChar, body, bodyChar, held, mark, openingInBody]
      rfl
    have cleared : Upholds s (modFramer s l fun f => { f with held := 0 }) := by
      refine .of_line l (fun _ hl _ => modFramer_keeps hl s _) fun sound framers => ?_
      exact (framersSound_iff.mp framers l).text (.refl s) sound fun _ => ⟨rfl, rfl⟩
    have dropped : Upholds (modFramer s l fun f => { f with held := 0 })
        (endMessageCut (modFramer s l fun f => { f with held := 0 }) l) := by
      have state : (modFramer s l fun f => { f with held := 0 }).lines[l].framer.state = .manageBody := by
        rw [modFramer_line]; exact body
      simp only [endMessageCut, state]
      exact ((dropMessage_keeps _).after (passSlashes_keeps _ l _)).upholds
    rw [opening]
    exact (takeOpening_upholds _ l _).after ((betweenDropAndRequest_upholds l _).after (dropped.after cleared))
  · rw [framerChar_between _ s l h drop]
    exact framerChar_upholds s l h

theorem badCharacter_upholds (s : State) (l : LineNo) (code : LineCode) : Upholds s (badCharacter s l code) :=
  (modLine_upholds _ l _ (by intro x; rfl)).after ((reloadSilence_upholds _ l).after
    ((raise_report _ _ _).keeps.upholds.after ((modLineCounters_upholds _ l _).after (framerChar_upholds s l _))))

theorem characterArrives_upholds (l : LineNo) (v : BitVec 7) (m : Bool) (s : State) :
    Upholds s (characterArrives l v m s) := by
  unfold characterArrives
  dsimp only
  split
  · split
    · exact goodCharacter_upholds (framerChar_between_upholds l) s _
    · exact badCharacter_upholds s l _
  · exact .refl s

/-! ### Breaks, silence and lines set afresh -/

theorem toHunt_upholds (s : State) (l : LineNo) : Upholds s (toHunt s l) :=
  .of_line l (fun _ hl _ => toHunt_keeps hl s) fun _ _ => .of_none (by rw [toHunt, modFramer_line]; rfl)

theorem framerAbandons_upholds (s : State) (l : LineNo) : Upholds s (framerAbandons s l) :=
  .of_line l (fun _ hl own => framerAbandons_keeps hl own) fun _ _ =>
    .of_none (by rw [framerAbandons, toHunt, modFramer_line]; rfl)

theorem framerBreaks_upholds (s : State) (l : LineNo) : Upholds s (framerBreaks s l) := by
  refine .of_line l (fun _ hl own => (modFramer_keeps hl _ _).after (framerAbandons_keeps hl own)) fun _ _ => .of_none ?_
  rw [framerBreaks, modFramer_line, framerAbandons, toHunt, modFramer_line]
  rfl

theorem breakBegins_upholds (l : LineNo) (s : State) : Upholds s (breakBegins l s) := by
  unfold breakBegins
  dsimp only
  split
  · exact (modLine_upholds _ l _ (by intro x; rfl)).after ((framerBreaks_upholds _ l).after
      ((raise_report _ _ _).keeps.upholds.after (modReceiver_upholds s l _)))
  · exact .refl s

theorem breakEnds_upholds (l : LineNo) (s : State) : Upholds s (breakEnds l s) := by
  unfold breakEnds
  dsimp only
  split
  · exact (reloadSilence_upholds _ l).after ((toHunt_upholds _ l).after (modReceiver_upholds s l _))
  · exact .refl s

theorem lineSilent_upholds (l : LineNo) (s : State) : Upholds s (lineSilent l s) := by
  unfold lineSilent
  split
  · exact .refl s
  · exact (raise_report _ _ _).keeps.upholds.after (modLine_upholds s l _ (by intro x; rfl))

theorem falseStart_upholds (l : LineNo) (s : State) : Upholds s (falseStart l s) := by
  unfold falseStart
  split
  · exact modLine_upholds s l _ (by intro x; rfl)
  · exact .refl s

theorem abandonReception_upholds (s : State) (l : LineNo) : Upholds s (abandonReception s l) :=
  modLine_upholds s l _ (by intro x; rfl)

theorem setLine_upholds (s : State) (l : LineNo) (d : LineDesc) : Upholds s (setLine s l d) :=
  (modLine_upholds _ l _ (by intro x; rfl)).after ((framerAbandons_upholds _ l).after
    ((abandonReception_upholds _ l).after (modLine_upholds s l _ (by intro x; rfl))))

theorem lineOut_upholds (s : State) (l : LineNo) : Upholds s (lineOut s l) :=
  (framerAbandons_upholds _ l).after ((modLine_upholds _ l _ (by intro x; rfl)).after
    ((abandonReception_upholds _ l).after (modLine_upholds s l _ (by intro x; rfl))))

/-! ### The frame of a command -/

theorem Upholds.of_eq_lines {s u : State} (slots : u.slots = s.slots) (recency : u.recency = s.recency)
    (lines : u.lines = s.lines) : Upholds s u := Keeps.upholds (.of_eq_lines slots recency lines)

theorem ReportOnly.upholds {s u : State} (h : ReportOnly s u) : Upholds s u := h.keeps.upholds

theorem OnlyCircuit.upholds {c : CircuitNo} {s u : State} (h : OnlyCircuit c s u) : Upholds s u := h.keeps.upholds

theorem atOnce_upholds (s : State) : Upholds s (atOnce s) := (atOnce_keeps s).upholds

theorem runEvent_upholds {f : State → State} {s u : State} (h : Upholds s (f s)) (e : runEvent f s = .next u) :
    Upholds s u := by
  unfold runEvent at e
  split at e <;> cases e
  · exact .refl s
  · exact (atOnce_upholds _).after h

theorem runBareEvent_upholds {f : State → State} {s u : State} (h : Upholds s (f s)) (e : runBareEvent f s = .next u) :
    Upholds s u := by
  unfold runBareEvent at e
  split at e <;> cases e
  · exact .refl s
  · exact h

theorem done_upholds {s t : State} {r : List Text} (h : Upholds s t) : Upholds s (done t r).1 := h

theorem raiseStanding_upholds (s : State) : Upholds s (raiseStanding s) := by
  unfold raiseStanding
  split
  · exact (raise_report s _ _).upholds
  · exact .refl s

theorem runRequest_upholds {verb : String} {lvl : State → Nat} {body : State → State × Answer} {ops : List Text}
    {s u : State} (h : ∀ s, Upholds s (body s).1) (e : runRequest verb lvl body ops s = .next u) : Upholds s u := by
  have popped : Upholds s (popLine s) := modMgmt_upholds s _
  have judged : Upholds (popLine s) (judge (lvl s) body (popLine s)).1 := by
    unfold judge
    split
    · exact (atOnce_upholds _).after (raiseStanding_upholds _)
    · exact h _
  unfold runRequest at e
  split at e <;> cases e
  · exact (modMgmt_upholds _ _).after (judged.after popped)
  · exact .refl s

/-! ### Bank, event and route requests -/

theorem modBank_upholds (s : State) (b : BankNo) (f : Bank → Bank) : Upholds s (modBank s b f) := .of_eq_lines rfl rfl rfl

theorem modEntry_upholds (s : State) (k : EventKind) (f : LatchEntry → LatchEntry) : Upholds s (modEntry s k f) :=
  .of_eq_lines rfl rfl rfl

theorem setEntry_upholds (s : State) (n : EntryNo) (f : RouteEntry → RouteEntry) : Upholds s (setEntry s n f) :=
  .of_eq_lines rfl rfl rfl

theorem withBank_upholds {t : Text} {s : State} {f : BankNo → State × Answer} (h : ∀ b, Upholds s (f b).1) :
    Upholds s (withBank t s f).1 := by
  unfold withBank
  split
  · exact .refl s
  · split
    · exact .refl s
    · exact h _

theorem bodyBankkind_upholds (ops : List Text) (s : State) : Upholds s (bodyBankkind ops s).1 := by
  unfold bodyBankkind
  split
  · exact .refl s
  · refine withBank_upholds fun b => ?_
    split
    · split
      · exact modBank_upholds s b _
      · exact .refl s
    · exact .refl s

theorem bankinEntries_upholds (s : State) (b : BankNo) (h : Option Shift) (first : Text) (es : List Text) :
    Upholds s (bankinEntries s b h first es).1 := by
  unfold bankinEntries
  dsimp only
  split
  · exact .refl s
  · split
    · split
      · exact .refl s
      · split
        · exact .refl s
        · exact modBank_upholds s b _
    · exact .refl s

theorem bodyBankin_upholds (ops : List Text) (s : State) : Upholds s (bodyBankin ops s).1 := by
  unfold bodyBankin
  split
  · exact .refl s
  · refine withBank_upholds fun b => ?_
    split
    · split
      · exact bankinEntries_upholds s b _ _ _
      · exact .refl s
    · exact bankinEntries_upholds s b _ _ _
    · exact .refl s

theorem bodyBankout_upholds (ops : List Text) (s : State) : Upholds s (bodyBankout ops s).1 := by
  unfold bodyBankout
  split
  · exact .refl s
  · refine withBank_upholds fun b => ?_
    dsimp only
    split
    · exact .refl s
    · split
      · exact .refl s
      · split
        · split
          · exact .refl s
          · split
            · exact .refl s
            · exact modBank_upholds s b _
        · exact .refl s

theorem bodyBanksub_upholds (ops : List Text) (s : State) : Upholds s (bodyBanksub ops s).1 := by
  unfold bodyBanksub
  split
  · exact .refl s
  · refine withBank_upholds fun b => ?_
    dsimp only
    split
    · split
      · exact .refl s
      · split
        · exact .refl s
        · exact modBank_upholds s b _
    · exact .refl s

theorem bodyBankshift_upholds (ops : List Text) (s : State) : Upholds s (bodyBankshift ops s).1 := by
  unfold bodyBankshift
  split
  · exact .refl s
  · refine withBank_upholds fun b => ?_
    split
    · split
      · split
        · exact modBank_upholds s b _
        · exact .refl s
      · exact .refl s
    · exact .refl s

theorem bodyEvents_upholds (ops : List Text) (s : State) : Upholds s (bodyEvents ops s).1 := by
  unfold bodyEvents
  split
  · exact .refl s
  · split
    · exact .refl s
    · split
      · exact .refl s
      · exact modEntry_upholds s _ _

theorem bodyClearevent_upholds (ops : List Text) (s : State) : Upholds s (bodyClearevent ops s).1 := by
  unfold bodyClearevent
  split
  · split
    · exact .refl s
    · exact modEntry_upholds s _ _
  · exact .refl s

theorem setMask_upholds (s : State) (k : EventKind) (on : Bool) : Upholds s (setMask s k on) := by
  unfold setMask
  split
  · exact .refl s
  · split
    · exact modEntry_upholds s _ _
    · dsimp only
      split
      · exact (alertDue_report _ k).upholds.after (modEntry_upholds s _ _)
      · exact modEntry_upholds s _ _

theorem bodyMask_upholds (ops : List Text) (s : State) : Upholds s (bodyMask ops s).1 := by
  unfold bodyMask
  split
  · split
    · exact done_upholds ((atOnce_upholds _).after (setMask_upholds s _ _))
    · exact .refl s
  · exact .refl s

theorem alertIfLatched_upholds (s : State) (k : EventKind) : Upholds s (alertIfLatched s k) := by
  unfold alertIfLatched
  split
  · exact (alertDue_report s k).upholds
  · exact .refl s

theorem setAlerts_upholds (s : State) (on : Bool) : Upholds s (setAlerts s on) := by
  unfold setAlerts
  split
  · exact .refl s
  · split
    · exact (foldl_upholds _ alertIfLatched_upholds allKinds { s with latch := { s.latch with alertMode := true } }).after
        (.of_eq_lines rfl rfl rfl)
    · exact .of_eq_lines rfl rfl rfl

theorem bodyAlerts_upholds (ops : List Text) (s : State) : Upholds s (bodyAlerts ops s).1 := by
  unfold bodyAlerts
  split
  · split
    · exact done_upholds ((atOnce_upholds _).after (setAlerts_upholds s _))
    · exact .refl s
  · exact .refl s

theorem bodyCounts_upholds (ops : List Text) (s : State) : Upholds s (bodyCounts ops s).1 := by
  unfold bodyCounts
  split
  · split
    · split <;> exact .refl s
    · split <;> exact .refl s
    · exact .refl s
  · exact .refl s

theorem zeroCounters_upholds (s : State) : Upholds s (zeroCounters s) := by
  refine Keeps.upholds (.of_eq rfl rfl fun m _ => ?_)
  show (mapAll s.lines fun x => { x with counters := LineCounters.zero })[m].framer = _
  rw [mapAll_get]

theorem bodyClearcounts_upholds (ops : List Text) (s : State) : Upholds s (bodyClearcounts ops s).1 := by
  unfold bodyClearcounts
  split
  · exact .refl s
  · exact zeroCounters_upholds s

theorem bodyRoute_upholds (ops : List Text) (s : State) : Upholds s (bodyRoute ops s).1 := by
  unfold bodyRoute
  split
  · exact .refl s
  · split
    · exact setEntry_upholds s _ _
    · exact .refl s

theorem bodyRouteoff_upholds (ops : List Text) (s : State) : Upholds s (bodyRouteoff ops s).1 := by
  unfold bodyRouteoff
  split
  · split
    · exact .refl s
    · split
      · exact .refl s
      · exact setEntry_upholds s _ _
  · exact .refl s

theorem membership_upholds (f : Bool → Bool) (ops : List Text) (s : State) : Upholds s (membership f ops s).1 := by
  unfold membership
  split
  · split
    · split
      · split
        · exact setEntry_upholds s _ _
        · exact .refl s
      · exact .refl s
    · exact .refl s
  · exact .refl s

theorem bodyDefaults_upholds (ops : List Text) (s : State) : Upholds s (bodyDefaults ops s).1 := by
  unfold bodyDefaults
  split
  · exact .refl s
  · exact .of_eq_lines rfl rfl rfl

theorem bodyFlashset_upholds (ops : List Text) (s : State) : Upholds s (bodyFlashset ops s).1 := by
  unfold bodyFlashset
  split
  · exact .refl s
  · exact .of_eq_lines rfl rfl rfl

theorem bodyPrecedence_upholds (ops : List Text) (s : State) : Upholds s (bodyPrecedence ops s).1 := by
  unfold bodyPrecedence
  split
  · exact .refl s
  · split
    · dsimp only
      split
      · exact .of_eq_lines rfl rfl rfl
      · exact .refl s
    · exact .refl s

theorem bodyQueue_upholds (ops : List Text) (s : State) : Upholds s (bodyQueue ops s).1 := by
  unfold bodyQueue
  split
  · split
    · exact .refl s
    · split <;> exact .refl s
  · exact .refl s

/-! ### Service and setup requests -/

theorem changeMode_upholds (s : State) (f : Mode → Mode) : Upholds s (changeMode s f) :=
  (foldl_upholds _ (fun u c => (tellDegree_only s.mode u c).upholds) (List.finRange 16) { s with mode := f s.mode }).after
    (.of_eq_lines rfl rfl rfl)

theorem modCircuit_upholds (s : State) (c : CircuitNo) (f : Circuit → Circuit) : Upholds s (modCircuit s c f) :=
  .of_eq_lines rfl rfl rfl

theorem disposeRecord_upholds (c : CircuitNo) (s : State) (r : Rec) : Upholds s (disposeRecord c s r) :=
  (raiseMissed_report _ c _).upholds.after ((modSender_only _ c _).upholds.after (returnRecord_keeps s r).upholds)

theorem circuitOut_upholds (s : State) (c : CircuitNo) : Upholds s (circuitOut s c) := by
  have carried : ∀ u x, Upholds u (disposeCarried u c x) := by
    intro u x
    unfold disposeCarried
    split
    · split
      · exact (returnRecord_keeps u _).upholds
      · exact disposeRecord_upholds c u _
    · exact .refl u
  exact (foldl_upholds _ (disposeRecord_upholds c) _ _).after ((carried _ _).after (modCircuit_upholds s c _))

theorem markUnsound_upholds (s : State) : Upholds s (markUnsound s) :=
  (foldl_upholds _ (fun u c => (circuitOut_upholds _ c).after (modCircuit_upholds u c _)) _ _).after
    (foldl_upholds _ lineOut_upholds _ s)

theorem tableCheck_upholds (s : State) : Upholds s (tableCheck s) := by
  have marked := markUnsound_upholds s
  unfold tableCheck
  dsimp only
  split
  · exact (raise_report _ _ _).upholds.after (marked.trans (.of_eq_lines rfl rfl rfl))
  · exact marked.trans (.of_eq_lines rfl rfl rfl)

theorem noOperands_upholds {ops : List Text} {s : State} {r : State × Answer} (h : Upholds s r.1) :
    Upholds s (noOperands ops s r).1 := by
  unfold noOperands
  split
  · exact h
  · exact .refl s

theorem bodyQuiet_upholds (ops : List Text) (s : State) : Upholds s (bodyQuiet ops s).1 := by
  refine noOperands_upholds ?_
  split
  · exact .refl s
  · exact done_upholds ((atOnce_upholds _).after (changeMode_upholds s _))

theorem bodyWake_upholds (ops : List Text) (s : State) : Upholds s (bodyWake ops s).1 := by
  refine noOperands_upholds ?_
  split
  · exact done_upholds ((atOnce_upholds _).after ((changeMode_upholds _ _).after (tableCheck_upholds s)))
  · exact .refl s

theorem bodyFull_upholds (ops : List Text) (s : State) : Upholds s (bodyFull ops s).1 := by
  refine noOperands_upholds ?_
  split
  · exact .refl s
  · exact done_upholds ((atOnce_upholds _).after (changeMode_upholds s _))

theorem bodyReduced_upholds (ops : List Text) (s : State) : Upholds s (bodyReduced ops s).1 := by
  unfold bodyReduced
  split
  · split
    · split
      · split
        · exact done_upholds ((atOnce_upholds _).after (changeMode_upholds s _))
        · exact .refl s
      · exact .refl s
    · exact .refl s
  · exact .refl s

theorem bodyLine_upholds (ops : List Text) (s : State) : Upholds s (bodyLine ops s).1 := by
  unfold bodyLine
  split
  · split
    · split
      · exact .refl s
      · split
        · exact .refl s
        · unfold lineJudged
          split
          · exact .refl s
          · split
            · exact done_upholds ((atOnce_upholds _).after (setLine_upholds s _ _))
            · exact .refl s
    · exact .refl s
  · exact .refl s

theorem bodyLinebank_upholds (ops : List Text) (s : State) : Upholds s (bodyLinebank ops s).1 := by
  unfold bodyLinebank
  split
  · split
    · split
      · exact .refl s
      · split
        · exact .refl s
        · split
          · exact modLine_upholds s _ _ (by intro x; rfl)
          · exact .refl s
    · exact .refl s
  · exact .refl s

theorem setCircuit_upholds (s : State) (c : CircuitNo) (d : CircuitDesc) : Upholds s (setCircuit s c d) := by
  unfold setCircuit
  dsimp only
  split
  · exact (circuitOut_upholds _ c).after (modCircuit_upholds s c _)
  · exact (workTest_only _ c).upholds.after (modCircuit_upholds s c _)

theorem bodyCircuit_upholds (ops : List Text) (s : State) : Upholds s (bodyCircuit ops s).1 := by
  unfold bodyCircuit
  split
  · split
    · unfold circuitJudged
      split
      · exact .refl s
      · split
        · split
          · exact done_upholds ((atOnce_upholds _).after (setCircuit_upholds s _ _))
          · exact .refl s
        · exact .refl s
    · exact .refl s
  · exact .refl s

theorem moveReports_upholds (s : State) (c : CircuitNo) : Upholds s (moveReports s c) := by
  unfold moveReports
  dsimp only
  split
  · exact .refl s
  · exact (offer_only _ c).upholds.after ((tellWithheldMore_only _ _).upholds.after
      ((modSender_only _ _ _).upholds.after (modMgmt_upholds s _)))

theorem bodyReportto_upholds (ops : List Text) (s : State) : Upholds s (bodyReportto ops s).1 := by
  unfold bodyReportto
  split
  · split
    · exact .refl s
    · split
      · exact .refl s
      · exact done_upholds ((atOnce_upholds _).after (moveReports_upholds s _))
  · exact .refl s

/-! ### Slots freed and framers switched -/

/-- Slots that stay as they were or become FREE stay sound. -/
theorem SlotsSound.some_freed {s u : State} (h : SlotsSound s)
    (slots : ∀ n : SlotNo, u.slots[n] = s.slots[n] ∨ u.slots[n] = Slot.freed) (recency : u.recency.Perm (List.finRange 40)) :
    SlotsSound u := by
  have kept : ∀ n : SlotNo, u.slots[n].state = .occupied → u.slots[n] = s.slots[n] := by
    intro n occupied
    refine (slots n).resolve_right fun freed => ?_
    rw [freed] at occupied
    cases occupied
  refine ⟨fun n free => ?_, fun n occupied => ?_, fun m n ne em en => ?_, ?_, recency⟩
  · obtain same | freed := slots n
    · rw [same] at free ⊢
      exact h.free n free
    · exact freed
  · have same := kept n occupied
    rw [same] at occupied ⊢
    exact h.keyed n occupied
  · have sameM := kept m em
    have sameN := kept n en
    rw [sameM] at em ⊢
    rw [sameN] at en ⊢
    exact h.distinct m n ne em en
  · refine Nat.le_trans (heldCount_le_of_imp fun n hn => ?_) h.held
    obtain same | freed := slots n
    · exact same ▸ hn
    · rw [freed] at hn
      cases hn

/-- R35: a framer that still names a take after the switch named it before, and its slot was not one of those switched. -/
theorem switchFramers_takeRef {p : SlotNo → Bool} {s : State} {l : LineNo} {n : SlotNo} {t : TakeNo}
    (h : (switchFramers p s).lines[l].framer.takeRef = some (n, t)) :
    (switchFramers p s).lines[l].framer = s.lines[l].framer ∧ p n = false := by
  simp only [switchFramers, mapAll_get] at h ⊢
  split at h
  · next j i ref =>
    cases hp : p j with
    | true =>
      rw [hp, if_pos rfl] at h
      cases h
    | false =>
      simp only [hp, if_neg Bool.false_ne_true] at h ⊢
      have same := ref.symm.trans h
      cases same
      exact ⟨trivial, hp⟩
  · next absent => exact nomatch absent.symm.trans h

/-- R35, R86 to R88: the slots that satisfy `p` are cleared, and the framers that fill a take of theirs are switched. -/
theorem Upholds.of_switched {s u : State} (p : SlotNo → Bool) (sound : SlotsSound s → SlotsSound u)
    (lines : u.lines = (switchFramers p s).lines) (others : ∀ n : SlotNo, p n = false → u.slots[n] = s.slots[n]) :
    Upholds s u := by
  refine ⟨sound, fun _ framers => framersSound_iff.mpr fun l n t ref => ?_⟩
  rw [lines] at ref ⊢
  obtain ⟨same, unswitched⟩ := switchFramers_takeRef ref
  rw [same] at ref ⊢
  obtain ⟨body, k, hk, filled⟩ := framersSound_iff.mp framers l n t ref
  exact ⟨body, k, by unfold takeAt; rw [others n unswitched]; exact hk, filled⟩

/-- Every slot FREE, and every framer without a take. -/
theorem Upholds.of_cleared {s u : State} (slots : ∀ n : SlotNo, u.slots[n] = Slot.freed) (recency : u.recency = recencyReset)
    (lines : ∀ l : LineNo, u.lines[l].framer.takeRef = none) : Upholds s u := by
  refine ⟨fun sound => sound.some_freed (fun n => Or.inr (slots n)) ?_, fun _ _ => framersSound_iff.mpr fun l =>
    .of_none (lines l)⟩
  rw [recency]
  exact .refl _

theorem restart_upholds (s : State) : Upholds s (restart s) := by
  refine .of_cleared (fun n => ?_) rfl fun l => ?_
  · simp [restart]
  · show (mapAll s.lines Line.restarted)[l].framer.takeRef = none
    rw [mapAll_get]
    rfl

theorem pinReset_upholds (s : State) : Upholds s (pinReset s) := by
  refine .of_cleared (fun n => ?_) rfl fun l => ?_
  · simp [pinReset, State.reset]
  · show (tabulate 24 fun l => { Line.reset l with input := s.lines[l].input })[l].framer.takeRef = none
    rw [tabulate_get]
    rfl

/-! ### Store requests -/

theorem withStory_upholds {ops : List Text} {s : State} {f : SlotNo → State × Answer}
    (h : ∀ n, s.slots[n].state = .occupied → Upholds s (f n).1) : Upholds s (withStory ops s f).1 := by
  unfold withStory
  split
  · exact .refl s
  · split
    · exact .refl s
    · next n found => exact h n (lookup_some found).1

theorem bare_upholds {ops : List Text} {s : State} {r : State × Answer} (h : Upholds s r.1) : Upholds s (bare ops s r).1 := by
  unfold bare
  split
  · exact h
  · exact .refl s

/-- R83: a story that is there is held, where it is held already or there is room. -/
theorem holdSlot_upholds {s : State} {n : SlotNo} (occupied : s.slots[n].state = .occupied)
    (room : s.slots[n].held = true ∨ heldCount s < 32) : Upholds s (holdSlot s n) := by
  have here : (holdSlot s n).slots[n] = { s.slots[n] with held := true } := modAt_same s.slots n _
  refine Keeps.upholds (.of_written (n := n) (fun sound => ?_) (fun _ _ => rfl) fun _ m t k hk filled => ?_)
  · refine ⟨fun m e => modAt_other s.slots _ e, ?_, ?_, fun m ne em => ?_, fun _ => room, toFront_perm sound.recency n⟩
    · rw [here]; exact occupied
    · rw [here]; exact sound.keyed n occupied
    · rw [here]; exact sound.distinct m n ne em occupied
  · rw [here]
    exact ⟨k, hk, filled⟩

/-- R65, R83: a slot is allocated for the key and held. -/
theorem holdAllocated_upholds {s : State} {n : SlotNo} {k : Key} (missing : lookup s k = none)
    (slot : slotToAllocate s = some n) (room : heldCount s < 32) : Upholds s (holdSlot (allocate s n k) n) := by
  refine Keeps.upholds (.of_written (n := n) (fun sound => ?_) (fun _ _ => rfl) fun sound m t x hx filled =>
    absurd filled (slotToAllocate_idle sound slot m t x hx))
  exact allocate_written (f := fun x => { x with held := true }) missing rfl rfl rfl (fun _ => room) rfl
    (toFront_perm (toFront_perm sound.recency n) n)

theorem bodyHold_upholds (ops : List Text) (s : State) : Upholds s (bodyHold ops s).1 := by
  unfold bodyHold
  split
  · exact .refl s
  · split
    · next n found =>
      split
      · next room =>
        refine holdSlot_upholds (lookup_some found).1 ?_
        rw [Bool.or_eq_true, decide_eq_true_eq] at room
        exact room
      · exact .refl s
    · next missing =>
      split
      · next room =>
        split
        · next n slot => exact holdAllocated_upholds missing slot room
        · exact .refl s
      · exact .refl s

/-- R83, R84: a story no longer held is the same story. -/
theorem sameStory_unheld (x : Slot) : SameStory x { x with held := false } := by
  refine ⟨rfl, rfl, fun yes => ?_, fun freed => ?_⟩
  · cases yes
  · rw [freed]
    rfl

theorem bodyUnhold_upholds (ops : List Text) (s : State) : Upholds s (bodyUnhold ops s).1 := by
  refine withStory_upholds fun n _ => done_upholds (Keeps.upholds ?_)
  exact (slotToFront_keeps _ n).after (modSlot_keeps (fun _ => sameStory_unheld _) fun _ _ _ _ k hk filled => ⟨k, hk, filled⟩)

theorem bodyUnholdall_upholds (ops : List Text) (s : State) : Upholds s (bodyUnholdall ops s).1 := by
  refine bare_upholds (done_upholds (Keeps.upholds fun sound => ⟨sound.same (fun n => ?_) sound.recency, fun m _ =>
    ⟨rfl, fun n t h => ?_⟩⟩))
  · show SameStory s.slots[n] (mapAll s.slots fun x => { x with held := false })[n]
    rw [mapAll_get]
    exact sameStory_unheld _
  · obtain ⟨k, hk, filled⟩ := h
    refine ⟨k, ?_, filled⟩
    show (mapAll s.slots fun x => { x with held := false })[n].takes[t] = some k
    rw [mapAll_get]
    exact hk

/-- R85: the pairs of a REPEAT make records for the story. -/
theorem repeatPair_makes (P : LineNo → Prop) (n : SlotNo) (cls : Class) (a : Repeating) (p : TakeNo × CircuitNo) :
    MakesFor P n a.state (repeatPair n cls a p).state := by
  refine MakesFor.trans (inGap_takenBeforeTurn_makes n a.state) ?_
  unfold repeatPair repeatTurn
  dsimp only
  split
  · exact .refl n _
  · split
    · exact .refl n _
    · split
      · exact makeFree_makes _ p.2 n _
      · exact ⟨(raise_report _ _ _).delivery, fun _ => (raise_report _ _ _).keeps⟩

theorem repeatPairs_make (P : LineNo → Prop) (n : SlotNo) (cls : Class) (ps : List (TakeNo × CircuitNo)) (a : Repeating) :
    MakesFor P n a.state (ps.foldl (repeatPair n cls) a).state := by
  induction ps generalizing a with
  | nil => exact .refl n _
  | cons p ps ih => exact (repeatPair_makes P n cls a p).trans (ih _)

theorem bodyRepeat_upholds (ops : List Text) (s : State) : Upholds s (bodyRepeat ops s).1 := by
  unfold bodyRepeat
  split
  · exact .refl s
  · split
    · split
      · exact .refl s
      · split
        · exact .refl s
        · next n found =>
          have made := fun cls ps => (repeatPairs_make (fun _ => True) n cls ps { state := s, queued := 0, unmade := 0 }).keeps
            (lookup_some found).1
          exact done_upholds ((atOnce_upholds _).after ((slotToFront_keeps _ n).upholds.after (made _ _).upholds))
    · exact .refl s

theorem DeliveryOnly.held {s u : State} (h : DeliveryOnly s u) (n : SlotNo) : u.slots[n].held = s.slots[n].held :=
  Eq.trans (congrArg Slot.held (h.stories n) :) rfl

/-- R86: the story is withdrawn; its records and its framers have been seen to. -/
theorem withdrawStory_upholds {s : State} {n : SlotNo} (occupied : s.slots[n].state = .occupied) :
    Upholds s (withdrawStory s n) := by
  have pulled := pullRecords_delivery (names n) .withdrawal s
  have upheld : Upholds s (pullRecords (names n) .withdrawal s) := (pullRecords_keeps _ _ s).upholds
  have occupied := pulled.occupied occupied
  have held : (pullRecords (names n) .withdrawal s).slots[n].held = s.slots[n].held := pulled.held n
  unfold withdrawStory
  dsimp only
  rw [← held]
  generalize pullRecords (names n) .withdrawal s = w at upheld occupied ⊢
  refine upheld.trans ?_
  split
  · next yes =>
    have others : ∀ m : SlotNo, m ≠ n → (modAt w.slots n emptiedHeld)[m] = w.slots[m] := fun m e => modAt_other _ _ e
    refine .of_switched (fun m => m = n) (fun sound => WrittenSlot.sound (n := n) ⟨others, ?_, ?_, fun m ne em => ?_,
      fun _ => Or.inl yes, sound.recency⟩ sound) rfl fun m e => others m (of_decide_eq_false e)
    · rw [modSlot_slots, modAt_same]; exact occupied
    · rw [modSlot_slots, modAt_same]; exact sound.keyed n occupied
    · rw [modSlot_slots, modAt_same]; exact sound.distinct m n ne em occupied
  · have others : ∀ m : SlotNo, m ≠ n → (modAt w.slots n fun _ => Slot.freed)[m] = w.slots[m] := fun m e => modAt_other _ _ e
    refine .of_switched (fun m => m = n) (fun sound => sound.some_freed (fun m => ?_) (toTail_perm sound.recency n)) rfl
      fun m e => others m (of_decide_eq_false e)
    by_cases e : m = n
    · subst e; exact Or.inr (modAt_same _ _ _)
    · exact Or.inl (others m e)

theorem bodyWithdraw_upholds (ops : List Text) (s : State) : Upholds s (bodyWithdraw ops s).1 :=
  withStory_upholds fun _ occupied => done_upholds (withdrawStory_upholds occupied)

theorem bodyClearunheld_upholds (ops : List Text) (s : State) : Upholds s (bodyClearunheld ops s).1 := by
  have slot : ∀ n : SlotNo, (mapAll s.slots fun x => if evictable x then Slot.freed else x)[n] =
      if evictable s.slots[n] then Slot.freed else s.slots[n] := fun n => mapAll_get _ _ n
  refine bare_upholds (done_upholds (Keeps.upholds fun sound => ⟨sound.some_freed (fun n => ?_) (.refl _), fun m _ =>
    ⟨rfl, fun n t h => ?_⟩⟩))
  · show (mapAll s.slots fun x => if evictable x then Slot.freed else x)[n] = _ ∨ _
    rw [slot]
    split
    · exact Or.inr rfl
    · exact Or.inl rfl
  · obtain ⟨k, hk, filled⟩ := h
    refine ⟨k, ?_, filled⟩
    show (mapAll s.slots fun x => if evictable x then Slot.freed else x)[n].takes[t] = some k
    rw [slot, if_neg fun evict => evictable_unfilled evict hk m filled]
    exact hk

theorem bodyClearstore_upholds (ops : List Text) (s : State) : Upholds s (bodyClearstore ops s).1 := by
  refine bare_upholds (done_upholds ((pullRecords_keeps namesAny .storeCut s).upholds.trans ?_))
  refine .of_switched (fun _ => true) (fun sound => sound.some_freed (fun n => Or.inr ?_) (.refl _)) rfl fun _ e => nomatch e
  simp [clearStore]

theorem bodyTakewait_upholds (ops : List Text) (s : State) : Upholds s (bodyTakewait ops s).1 := by
  unfold bodyTakewait
  split
  · split
    · exact .refl s
    · exact .of_eq_lines rfl rfl rfl
  · exact .refl s

/-! ### Timers and the end of an execution -/

theorem waitExpires_upholds (n : SlotNo) (t : TakeNo) (s : State) : Upholds s (waitExpires n t s) := by
  unfold waitExpires
  split
  · next waiting =>
    obtain ⟨k, present⟩ := isWaiting_take waiting
    exact (expireWait_keeps (ne_freed_of_take present) t).upholds
  · exact .refl s

theorem runOnEnds_upholds (c : CircuitNo) (s : State) : Upholds s (runOnEnds c s) := by
  unfold runOnEnds
  split
  · exact (modSender_only s c _).upholds
  · exact .refl s

theorem executionEnds_upholds (s : State) : Upholds s (executionEnds s) := by
  have restarted : Upholds s (if s.mgmt.restartDue then restart s else s) := by
    split
    · exact restart_upholds s
    · exact .refl s
  unfold executionEnds
  split
  · dsimp only
    split
    · exact (modMgmt_upholds _ _).after ((placeReply_report _ _).upholds.after restarted)
    · exact (modMgmt_upholds _ _).after restarted
  · exact .refl s

/-- Whatever the command, the slots stay sound, and with them the framers. -/
theorem exec_upholds (i : Instr) {s u : State} (h : exec i s = .next u) : Upholds s u := by
  cases i with
  | resetAsserted => cases h; exact .of_eq_lines rfl rfl rfl
  | resetReleased => cases h; exact pinReset_upholds s
  | characterArrives l v m => exact runEvent_upholds (characterArrives_upholds l v m s) h
  | breakWatchExpires l => exact runEvent_upholds (breakBegins_upholds l s) h
  | markingIntervalExpires l => exact runBareEvent_upholds (breakEnds_upholds l s) h
  | silenceTimerExpires l => exact runEvent_upholds (lineSilent_upholds l s) h
  | unknownRequest v ops =>
    change execUnknownRequest v ops s = _ at h
    unfold execUnknownRequest at h
    split at h <;> cases h
    · exact (modMgmt_upholds (popLine s) _).after (modMgmt_upholds s _)
    · exact .refl s
  | line ops => exact runRequest_upholds (lvl := fun _ => 3) (bodyLine_upholds ops) h
  | linebank ops => exact runRequest_upholds (lvl := fun _ => 2) (bodyLinebank_upholds ops) h
  | circuit ops => exact runRequest_upholds (lvl := fun _ => 3) (bodyCircuit_upholds ops) h
  | bankkind ops => exact runRequest_upholds (lvl := fun _ => 3) (bodyBankkind_upholds ops) h
  | bankin ops => exact runRequest_upholds (lvl := fun _ => 3) (bodyBankin_upholds ops) h
  | bankout ops => exact runRequest_upholds (lvl := fun _ => 3) (bodyBankout_upholds ops) h
  | banksub ops => exact runRequest_upholds (lvl := fun _ => 3) (bodyBanksub_upholds ops) h
  | bankshift ops => exact runRequest_upholds (lvl := fun _ => 3) (bodyBankshift_upholds ops) h
  | route ops => exact runRequest_upholds (bodyRoute_upholds ops) h
  | routeoff ops => exact runRequest_upholds (bodyRouteoff_upholds ops) h
  | mark ops => exact runRequest_upholds (membership_upholds _ ops) h
  | unmark ops => exact runRequest_upholds (membership_upholds _ ops) h
  | flip ops => exact runRequest_upholds (membership_upholds _ ops) h
  | test ops => exact runRequest_upholds (lvl := fun _ => 1) (membership_upholds _ ops) h
  | defaults ops => exact runRequest_upholds (lvl := fun _ => 2) (bodyDefaults_upholds ops) h
  | flashset ops => exact runRequest_upholds (lvl := fun _ => 2) (bodyFlashset_upholds ops) h
  | precedence ops => exact runRequest_upholds (lvl := fun _ => 3) (bodyPrecedence_upholds ops) h
  | queue ops => exact runRequest_upholds (lvl := fun _ => 1) (bodyQueue_upholds ops) h
  | hold ops => exact runRequest_upholds (lvl := fun _ => 1) (bodyHold_upholds ops) h
  | unhold ops => exact runRequest_upholds (lvl := fun _ => 1) (bodyUnhold_upholds ops) h
  | unholdall ops => exact runRequest_upholds (lvl := fun _ => 2) (bodyUnholdall_upholds ops) h
  | repeatTakes ops => exact runRequest_upholds (lvl := fun _ => 1) (bodyRepeat_upholds ops) h
  | withdraw ops => exact runRequest_upholds (lvl := fun _ => 2) (bodyWithdraw_upholds ops) h
  | clearunheld ops => exact runRequest_upholds (lvl := fun _ => 3) (bodyClearunheld_upholds ops) h
  | clearstore ops => exact runRequest_upholds (lvl := fun _ => 3) (bodyClearstore_upholds ops) h
  | takewait ops => exact runRequest_upholds (lvl := fun _ => 3) (bodyTakewait_upholds ops) h
  | story ops => exact runRequest_upholds (lvl := fun _ => 1) (body := bodyStory ops) (fun s => withStory_upholds fun _ _ => .refl s) h
  | reportto ops => exact runRequest_upholds (lvl := fun _ => 3) (bodyReportto_upholds ops) h
  | status ops => exact runRequest_upholds (lvl := fun _ => 1) (body := bodyStatus ops) (fun s => noOperands_upholds (.refl s)) h
  | quiet ops => exact runRequest_upholds (lvl := fun _ => 2) (bodyQuiet_upholds ops) h
  | wake ops => exact runRequest_upholds (lvl := fun _ => 2) (bodyWake_upholds ops) h
  | full ops => exact runRequest_upholds (lvl := fun _ => 2) (bodyFull_upholds ops) h
  | reduced ops => exact runRequest_upholds (lvl := fun _ => 2) (bodyReduced_upholds ops) h
  | restart ops => exact runRequest_upholds (lvl := fun _ => 3) (body := bodyRestart ops) (fun s => noOperands_upholds (done_upholds (modMgmt_upholds s _))) h
  | events ops => exact runRequest_upholds (lvl := fun _ => 1) (bodyEvents_upholds ops) h
  | clearevent ops => exact runRequest_upholds (lvl := fun _ => 2) (bodyClearevent_upholds ops) h
  | mask ops => exact runRequest_upholds (lvl := fun _ => 2) (bodyMask_upholds ops) h
  | alerts ops => exact runRequest_upholds (lvl := fun _ => 2) (bodyAlerts_upholds ops) h
  | counts ops => exact runRequest_upholds (lvl := fun _ => 1) (bodyCounts_upholds ops) h
  | clearcounts ops => exact runRequest_upholds (lvl := fun _ => 2) (bodyClearcounts_upholds ops) h
  | executionEnds => exact runEvent_upholds (executionEnds_upholds s) h
  | waitTimerExpires n t => exact runEvent_upholds (waitExpires_upholds n t s) h
  | secondAgeing => exact runBareEvent_upholds (mapCircuits_keeps s _).upholds h
  | motorStartTimerExpires c => exact runEvent_upholds (motorReady_only c s).upholds h
  | runOnTimerExpires c => exact runBareEvent_upholds (runOnEnds_upholds c s) h
  | characterSent c => exact runEvent_upholds (f := fun t => charSent t c) (charSent_keeps s c).upholds h
  | markToSpaceTransition l => cases h; exact modLine_upholds s l _ (by intro x; rfl)
  | spaceToMarkTransition l => cases h; exact modLine_upholds s l _ (by intro x; rfl)
  | falseStart l => exact runBareEvent_upholds (falseStart_upholds l s) h

theorem step_upholds {s u : State} (h : step s = .next u) : Upholds s u := by
  unfold step at h
  split at h
  · cases h
    exact .refl s
  · next c rest _ => exact Upholds.trans (.of_eq_lines (u := { s with pending := rest }) rfl rfl rfl) (exec_upholds c h)

/-- Settles O51: both invariants are kept by every command, each followed through the operations it is made of. -/
theorem theSlotsStaySound : Obligations.TheSlotsStaySound := by
  unfold Obligations.TheSlotsStaySound
  exact ⟨fun _ _ sound h => (step_upholds h).slots sound, fun _ _ sound framers h => (step_upholds h).framers sound framers⟩

end Sys2Proof.Machine
/-! ## A character that a line hands to its framer

R8, R12: what a character with its stop sample marking leaves of its line, whatever its framer makes of it. -/

namespace Sys2Proof.Machine

open Sys2Proof

/-- R8: the character has been converted, and the line's shift state is `sh`; the framer has not been handed it yet. -/
def shifted (s : State) (l : LineNo) (sh : Shift) : State := modLine s l fun x => { x with shift := sh }

/-- R8, R12: the framer has handled the character; the receiver rests and the silence timer is reloaded. -/
def rested (w : State) (l : LineNo) : State :=
  modLine w l fun x =>
    { x with input := .marking, receiver := Receiver.reset, silence := (silenceLoad x).or x.silence }

theorem goodCharacter_eq {between : State → State} {s : State} {l : LineNo} {code : LineCode} {h : House} {sh : Shift}
    (converts : convertIn s.banks[s.lines[l].desc.bank] s.lines[l].desc.width s.lines[l].shift code = (some h, sh)) :
    goodCharacter between s l code = rested (framerChar between (shifted s l sh) l h) l := by
  simp only [goodCharacter, receiveCode, converts, reloadSilence, modLine_modLine]
  rfl

/-- R8: the command, for a character that its line's bank converts. -/
theorem exec_character {s : State} {l : LineNo} {v : BitVec 7} {h : House} {sh : Shift} (arrived : arrives s l v (some h) sh) :
    exec (.characterArrives l v true) s =
      .next (atOnce (rested (framerChar (betweenDropAndRequest l) (shifted s l sh) l h) l)) := by
  obtain ⟨high, can, converts⟩ := arrived
  show runEvent (characterArrives l v true) s = _
  rw [runEvent_high high]
  simp only [characterArrives, can, if_true, goodCharacter_eq converts]

theorem shifted_line (s : State) (l : LineNo) (sh : Shift) : (shifted s l sh).lines[l] = { s.lines[l] with shift := sh } :=
  modLine_line s l _

theorem shifted_framer (s : State) (l : LineNo) (sh : Shift) : (shifted s l sh).lines[l].framer = s.lines[l].framer := by
  rw [shifted_line]

theorem shifted_other {s : State} {l m : LineNo} (sh : Shift) (h : m ≠ l) : (shifted s l sh).lines[m] = s.lines[m] :=
  modAt_other _ _ h

/-- A line of which the framer and its counters alone have changed, at rest. -/
theorem rested_line {s w : State} {l : LineNo} {sh : Shift} {f : Framer} {k : LineCounters}
    (service : lineInService s.lines[l] = true)
    (h : w.lines[l] = { s.lines[l] with shift := sh, framer := f, counters := k }) :
    (rested w l).lines[l] = afterCharacter sh f k s.lines[l] := by
  have load := silenceLoad_inService (x := { s.lines[l] with shift := sh, framer := f, counters := k }) service
  rw [rested, modLine_line, h, load]
  rfl

theorem rested_other {w : State} {l m : LineNo} (h : m ≠ l) : (rested w l).lines[m] = w.lines[m] := modAt_other _ _ h

/-- The part once the framer has changed itself and the counters of its line, and nothing else. -/
theorem rested_modLine {s : State} {l : LineNo} {sh : Shift} {f : Framer} {k : LineCounters} {g : Line → Line}
    (service : lineInService s.lines[l] = true)
    (h : g { s.lines[l] with shift := sh } = { s.lines[l] with shift := sh, framer := f, counters := k }) :
    rested (modLine (shifted s l sh) l g) l = withLine s l sh f k := by
  have load := silenceLoad_inService (x := { s.lines[l] with shift := sh, framer := f, counters := k }) service
  simp only [rested, shifted, modLine_modLine, withLine]
  refine modLine_congr ?_
  rw [h, load]
  rfl

theorem rested_modFramer {s : State} {l : LineNo} {sh : Shift} {g : Framer → Framer}
    (service : lineInService s.lines[l] = true) :
    rested (modFramer (shifted s l sh) l g) l = withLine s l sh (g s.lines[l].framer) s.lines[l].counters :=
  rested_modLine service rfl

/-! ### Opening marks (R19, R159, R160) -/

/-- R19: an opening mark's count, and the framer with nothing of a header collected. -/
def marked (s : State) (l : LineNo) : State :=
  modLine s l fun x =>
    { x with
      counters := { x.counters with messagesTaken := count x.counters.messagesTaken }
      framer := { x.framer with header := [], takeRef := none, held := 0, lineStart := false } }

theorem takeOpening_copy (s : State) (l : LineNo) :
    takeOpening s l .copy = modLine s l fun x =>
      { x with
        counters := { x.counters with messagesTaken := count x.counters.messagesTaken }
        framer := Framer.inHeader .copy } := by
  simp only [takeOpening, modLineCounters, modFramer, modLine_modLine]
  rfl

/-- R19, R159: a management opening asks for the buffer. -/
theorem takeOpening_management (s : State) (l : LineNo) :
    takeOpening s l .management = if (askBuffer (marked s l) l).2 then
        modFramer (askBuffer (marked s l) l).1 l fun f => { f with state := .header, kind := .management }
      else toDiscard (askBuffer (marked s l) l).1 l true := by
  have counted : marked s l = modFramer (modLineCounters s l fun c => { c with messagesTaken := count c.messagesTaken }) l
      fun f => { f with header := [], takeRef := none, held := 0, lineStart := false } := by
    simp only [modLineCounters, modFramer, modLine_modLine]
    rfl
  rw [counted]
  rfl

/-- R159: a FREE buffer is granted. -/
theorem takeOpening_granted {s : State} {l : LineNo} (free : s.mgmt.buffer = .free) :
    takeOpening s l .management = modMgmt (modLine s l fun x =>
      { x with
        counters := { x.counters with messagesTaken := count x.counters.messagesTaken }
        framer := Framer.inHeader .management }) fun m => { m.released with buffer := .opened, holder := some l } := by
  have granted : askBuffer (marked s l) l =
      (modMgmt (marked s l) fun m => { m.released with buffer := .opened, holder := some l }, true) := if_pos free
  rw [takeOpening_management, granted, if_pos rfl]
  simp only [modFramer, modLine, modMgmt, marked, modAt_modAt]
  rfl

/-- R160: the message of a line to which the buffer is not granted has been counted refused. -/
def turnedAway (s : State) (l : LineNo) : State :=
  modLineCounters (marked s l) l fun c => { c with refused := count c.refused }

theorem turnedAway_line (s : State) (l : LineNo) : (turnedAway s l).lines[l] =
    { s.lines[l] with
      counters :=
        { s.lines[l].counters with
          messagesTaken := count s.lines[l].counters.messagesTaken, refused := count s.lines[l].counters.refused }
      framer := { s.lines[l].framer with header := [], takeRef := none, held := 0, lineStart := false } } := by
  simp only [turnedAway, marked, modLineCounters, modLine_modLine, modLine_line]

/-- R160: a buffer that is held is refused, BUSY is answered, and the message is passed over. -/
theorem takeOpening_refused {s : State} {l : LineNo} (held : s.mgmt.buffer ≠ .free) :
    takeOpening s l .management =
      toDiscard (placeReply (turnedAway s l) (shortReply none l (txt "BUSY"))) l true := by
  have refused : askBuffer (marked s l) l = (placeReply (turnedAway s l) (shortReply none l (txt "BUSY")), false) :=
    if_neg held
  rw [takeOpening_management, refused, if_neg Bool.false_ne_true]

end Sys2Proof.Machine
/-! ## A sender that is offered work

R133 to R136: `offer` and the selection it may make, told in the terms of `Offered`; and with it what the placing of a
report does (R172). -/

namespace Sys2Proof.Machine

open Sys2Proof

/-! ### A selection looks at the queue, the chain and the reports -/

theorem choose_congr {s u : State} {c : CircuitNo} (desc : u.circuits[c].desc = s.circuits[c].desc)
    (queue : u.circuits[c].queue = s.circuits[c].queue) (chain : u.circuits[c].sender.chain = s.circuits[c].sender.chain)
    (mode : u.mode = s.mode) (precedence : u.precedence = s.precedence) (mgmt : u.mgmt = s.mgmt) :
    choose u c = choose s c := by
  have degree : degreeOf u c = degreeOf s c := by simp only [degreeOf, mode]
  have eligible : isEligible u c = isEligible s c := by funext r; simp only [isEligible, degree]
  have score : scoreOf u = scoreOf s := by funext r; simp only [scoreOf, precedence]
  have breaker : ∀ y, breakerFor u c y = breakerFor s c y := by
    intro y
    simp only [breakerFor, eligible, score, desc, queue]
  have below : selectBelowChain u c = selectBelowChain s c := by
    simp only [selectBelowChain, eligible, score, queue, mgmt]
  simp only [choose, chain, breaker, degree, below]

/-- What a change of the sender leaves of the selection, if it leaves the chain. -/
theorem choose_modSender {s : State} {c : CircuitNo} {f : Sender → Sender}
    (chain : (f s.circuits[c].sender).chain = s.circuits[c].sender.chain) : choose (modSender s c f) c = choose s c := by
  have circuit : (modSender s c f).circuits[c] = { s.circuits[c] with sender := f s.circuits[c].sender } := modAt_same _ c _
  refine choose_congr ?_ ?_ ?_ rfl rfl rfl
  · rw [circuit]
  · rw [circuit]
  · rw [circuit]; exact chain

theorem highest_some {α : Type} {p : α → Bool} {f : α → Nat} {l : List α} {i v : Nat} (h : highest p f l = some (i, v)) :
    ∃ x, l[i]? = some x := by
  induction l generalizing i v with
  | nil => cases h
  | cons x xs ih =>
    unfold highest at h
    split at h
    · split at h <;> cases h
      exact ⟨x, rfl⟩
    · next j w rest =>
      split at h <;> cases h
      · exact ⟨x, rfl⟩
      · obtain ⟨y, hy⟩ := ih rest
        exact ⟨y, hy⟩

/-- R120 steps 3 to 5. -/
theorem selectBelowChain_cases (s : State) (c : CircuitNo) : selectBelowChain s c = .report ∨
    (∃ i v, highest (isEligible s c) (scoreOf s) s.circuits[c].queue = some (i, v) ∧ selectBelowChain s c = .start i) ∨
    selectBelowChain s c = .nothing := by
  cases best : highest (isEligible s c) (scoreOf s) s.circuits[c].queue with
  | none =>
    simp only [selectBelowChain, best]
    split
    · exact Or.inl rfl
    · exact Or.inr (Or.inr rfl)
  | some b =>
    simp only [selectBelowChain, best]
    split
    · exact Or.inl rfl
    · exact Or.inr (Or.inl ⟨b.1, b.2, rfl, rfl⟩)

/-- R120: a record that is chosen stands in the queue. -/
theorem choose_start {s : State} {c : CircuitNo} {i : Nat} (h : choose s c = .start i) :
    ∃ r, s.circuits[c].queue[i]? = some r := by
  have below : selectBelowChain s c = .start i → ∃ r, s.circuits[c].queue[i]? = some r := by
    intro h
    obtain report | ⟨j, v, best, start⟩ | nothing := selectBelowChain_cases s c
    · exact nomatch report.symm.trans h
    · obtain rfl : j = i := Selection.start.inj (start.symm.trans h)
      exact highest_some best
    · exact nomatch nothing.symm.trans h
  unfold choose at h
  split at h
  · exact below h
  · split at h
    · next j breaker =>
      cases h
      obtain ⟨⟨j, v⟩, best, rfl⟩ := Option.map_eq_some_iff.mp breaker
      exact highest_some best
    · split at h
      · cases h
      · exact below h

/-- R120: a record that resumes is the top of the chain. -/
theorem choose_resume {s : State} {c : CircuitNo} {r : Rec} (h : choose s c = .resume r) :
    s.circuits[c].sender.chain.getLast? = some r := by
  have below : selectBelowChain s c ≠ .resume r := by
    intro h
    obtain report | ⟨j, v, -, start⟩ | nothing := selectBelowChain_cases s c
    · exact nomatch report.symm.trans h
    · exact nomatch start.symm.trans h
    · exact nomatch nothing.symm.trans h
  unfold choose at h
  split at h
  · exact absurd h below
  · next top chain =>
    split at h
    · cases h
    · split at h
      · cases h
        exact chain
      · exact absurd h below

/-! ### What a sender begins -/

/-- A sender without what taking a character changes in it. -/
def untaken (x : Sender) : Sender :=
  { x with lead := [], gap := [], header := [], tail := [], bodyPos := 0, reportPos := 0, belief := .unknown, sending := none }

theorem nextChar_untaken {v : Version} {report : Text} {x y : Sender} {h : House} (e : nextChar v report x = some (h, y)) :
    untaken y = untaken x := by
  unfold nextChar at e
  split at e <;> split at e <;> cases e <;> rfl

/-- The circuit once a character has been taken, or a fold sent before it: besides the character nothing has changed. -/
theorem takeNext_circuit (s : State) (c : CircuitNo) : ∃ y, untaken y = untaken s.circuits[c].sender ∧
    (takeNext s c).circuits[c] = { s.circuits[c] with sender := y } := by
  have sent : ∀ z, (modSender s c fun _ => z).circuits[c] = { s.circuits[c] with sender := z } := fun z => modAt_same _ c _
  unfold takeNext
  dsimp only
  split
  · exact ⟨s.circuits[c].sender, rfl, rfl⟩
  · next h y next =>
    split
    · exact ⟨sendChar s c houseNL s.circuits[c].sender, rfl, sent _⟩
    · exact ⟨sendChar s c h y, (nextChar_untaken next : untaken y = _), sent _⟩

/-- R138: with room on the line the next character is sent. -/
theorem takeNext_sends {s : State} {c : CircuitNo} {h : House} {y : Sender}
    (next : nextChar (carriedVersion s s.circuits[c].sender) (oldestReport s) s.circuits[c].sender = some (h, y))
    (room : s.circuits[c].sender.column ≠ s.circuits[c].desc.carriage) :
    (takeNext s c).circuits[c] = { s.circuits[c] with sender := sendChar s c h y } := by
  simp only [takeNext, next, if_neg fun e : isAdvancing h = true ∧ _ => room e.2]
  exact modAt_same _ c _

/-- A sender without what the passing of its phases changes in it. -/
def unsettled (x : Sender) : Sender := { untaken x with phase := .lead }

theorem settlePhase_unsettled (v : Version) (x : Sender) : unsettled (settlePhase v x) = unsettled x := by
  have step : ∀ (p : Prop) [Decidable p] (z : Sender) (q : Phase) (t : Text),
      unsettled (if p then { z with phase := q, tail := t } else z) = unsettled z := by
    intro p _ z q t
    split <;> rfl
  have step' : ∀ (p : Prop) [Decidable p] (z : Sender) (q : Phase),
      unsettled (if p then { z with phase := q } else z) = unsettled z := by
    intro p _ z q
    split <;> rfl
  unfold settlePhase
  dsimp only
  rw [step, step', step', step']

/-- R139: the sender that begins with a record. -/
structure BeginsWith (r : Rec) (x y : Sender) : Prop where
  state : y.state = .carrying
  carried : y.carried = .record r
  chain : y.chain = x.chain
  motor : y.motor = x.motor
  timers : y.motorTimer = none ∧ y.runOnTimer = none
  noBreak : y.breakPending = false
  counters : y.completed = x.completed ∧ y.missed = x.missed ∧ y.breaksIn = x.breaksIn

theorem beginRecord_begins (s : State) (r : Rec) (b : Bool) (x : Sender) : BeginsWith r x (beginRecord s r b x) := by
  unfold beginRecord
  dsimp only
  split
  · exact ⟨rfl, rfl, rfl, rfl, ⟨rfl, rfl⟩, rfl, ⟨rfl, rfl, rfl⟩⟩
  · split <;> exact ⟨rfl, rfl, rfl, rfl, ⟨rfl, rfl⟩, rfl, ⟨rfl, rfl, rfl⟩⟩

theorem BeginsWith.of_unsettled {r : Rec} {x y z : Sender} (h : BeginsWith r x y) (e : unsettled z = unsettled y) :
    BeginsWith r x z where
  state := Eq.trans (congrArg Sender.state e :) h.state
  carried := Eq.trans (congrArg Sender.carried e :) h.carried
  chain := Eq.trans (congrArg Sender.chain e :) h.chain
  motor := Eq.trans (congrArg Sender.motor e :) h.motor
  timers := ⟨Eq.trans (congrArg Sender.motorTimer e :) h.timers.1, Eq.trans (congrArg Sender.runOnTimer e :) h.timers.2⟩
  noBreak := Eq.trans (congrArg Sender.breakPending e :) h.noBreak
  counters := ⟨Eq.trans (congrArg Sender.completed e :) h.counters.1,
    Eq.trans (congrArg Sender.missed e :) h.counters.2.1, Eq.trans (congrArg Sender.breaksIn e :) h.counters.2.2⟩

theorem carryRecord_circuit (s : State) (c : CircuitNo) (r : Rec) (b : Bool) : ∃ y,
    BeginsWith r s.circuits[c].sender y ∧ (carryRecord s c r b).circuits[c] = { s.circuits[c] with sender := y } := by
  have carrying : (modSender s c fun x => settlePhase (readVersion s r) (beginRecord s r b x)).circuits[c] =
      { s.circuits[c] with sender := settlePhase (readVersion s r) (beginRecord s r b s.circuits[c].sender) } :=
    modAt_same _ c _
  obtain ⟨y, taken, circuit⟩ := takeNext_circuit (modSender s c fun x => settlePhase (readVersion s r) (beginRecord s r b x)) c
  rw [carrying] at taken circuit
  refine ⟨y, (beginRecord_begins s r b _).of_unsettled ?_, circuit⟩
  exact Eq.trans (congrArg (fun z : Sender => { z with phase := .lead }) taken) (settlePhase_unsettled _ _)

/-! ### The first character (R135, R140) -/

/-- R139: the phases before the body are passed over up to the first that holds a character. -/
theorem nextChar_settlePhase {v w : Version} {report rest : Text} {y : Sender} {h : House} (start : y.phase = .lead)
    (first : y.lead ++ (y.gap ++ y.header) = h :: rest) :
    ∃ z, nextChar w report (settlePhase v y) = some (h, z) ∧ z.bodyPos = y.bodyPos := by
  cases lead : y.lead with
  | cons a t =>
    obtain ⟨rfl, -⟩ := List.cons.inj ((congrArg (· ++ (y.gap ++ y.header)) lead).symm.trans first)
    exact ⟨{ y with lead := t }, by simp [settlePhase, nextChar, start, lead], rfl⟩
  | nil =>
    rw [lead, List.nil_append] at first
    cases gap : y.gap with
    | cons a t =>
      obtain ⟨rfl, -⟩ := List.cons.inj ((congrArg (· ++ y.header) gap).symm.trans first)
      exact ⟨{ y with phase := .gap, gap := t }, by simp [settlePhase, nextChar, start, lead, gap], rfl⟩
    | nil =>
      rw [gap, List.nil_append] at first
      exact ⟨{ y with phase := .header, header := rest }, by simp [settlePhase, nextChar, start, lead, gap, first], rfl⟩

theorem beginRecord_first {s : State} {f : RecRef} {r : Rec} {x : Sender} (ref : r.ref = some f) :
    (beginRecord s r false x).phase = .lead ∧ (beginRecord s r false x).bodyPos = r.resume.getD 0 ∧
      (beginRecord s r false x).lead ++ ((beginRecord s r false x).gap ++ (beginRecord s r false x).header) =
        firstLines s f r := by
  unfold beginRecord firstLines
  simp only [ref]
  cases r.resume with
  | some k => exact ⟨rfl, rfl, List.append_nil _⟩
  | none => exact ⟨rfl, rfl, rfl⟩

theorem beginRecord_column (s : State) (r : Rec) (b : Bool) (x : Sender) : (beginRecord s r b x).column = x.column := by
  unfold beginRecord
  dsimp only
  split
  · rfl
  · split <;> rfl

/-- R135: with room on the line, a record is sent from the first character of its first lines. -/
theorem carryRecord_first {s : State} {c : CircuitNo} {r : Rec} {f : RecRef} {h : House} (ref : r.ref = some f)
    (first : (firstLines s f r).head? = some h) (room : s.circuits[c].sender.column ≠ s.circuits[c].desc.carriage) :
    (carryRecord s c r false).circuits[c].sender.sending.map Sending.char = some h ∧
      (carryRecord s c r false).circuits[c].sender.bodyPos = r.resume.getD 0 := by
  obtain ⟨start, bodyPos, lines⟩ := beginRecord_first (s := s) (x := s.circuits[c].sender) ref
  obtain ⟨rest, eq⟩ := List.head?_eq_some_iff.mp first
  let x := settlePhase (readVersion s r) (beginRecord s r false s.circuits[c].sender)
  let u := modSender s c fun _ => x
  have circuit : u.circuits[c] = { s.circuits[c] with sender := x } := modAt_same _ c _
  have column : x.column = s.circuits[c].sender.column :=
    Eq.trans (congrArg Sender.column (settlePhase_unsettled _ _) :) (beginRecord_column s r false _)
  obtain ⟨z, next, pos⟩ := nextChar_settlePhase (v := readVersion s r) (w := carriedVersion u x)
    (report := oldestReport u) start (lines.trans eq)
  have sent : (takeNext u c).circuits[c] = { u.circuits[c] with sender := sendChar u c h z } :=
    takeNext_sends (by rw [circuit]; exact next) (by rw [circuit]; exact column.trans_ne room)
  have eq : (carryRecord s c r false).circuits[c].sender = sendChar u c h z := by
    refine Eq.trans ?_ (congrArg Circuit.sender sent)
    rfl
  rw [eq]
  exact ⟨rfl, pos.trans bodyPos⟩

/-! ### What a selection begins (R122, R135, R144) -/

theorem carryReport_circuit (s : State) (c : CircuitNo) : ∃ y,
    (y.state = .carrying ∧ y.carried = .report ∧ y.phase = .report ∧ y.chain = s.circuits[c].sender.chain ∧
      y.motor = s.circuits[c].sender.motor ∧ y.motorTimer = none ∧ y.runOnTimer = none ∧ y.breakPending = false ∧
      y.completed = s.circuits[c].sender.completed ∧ y.missed = s.circuits[c].sender.missed ∧
      y.breaksIn = s.circuits[c].sender.breaksIn) ∧
    (carryReport s c).circuits[c] = { s.circuits[c] with sender := y } := by
  let x := s.circuits[c].sender
  let b : Sender := { x.bare with
    state := .carrying, motorTimer := none, runOnTimer := none, carried := .report, phase := .report }
  have carrying : (modSender s c fun _ => b).circuits[c] = { s.circuits[c] with sender := b } := modAt_same _ c _
  obtain ⟨y, taken, circuit⟩ := takeNext_circuit (modSender s c fun _ => b) c
  rw [carrying] at taken circuit
  have eq (α : Type) (p : Sender → α) (h : ∀ z, p (untaken z) = p z) : p y = p b :=
    (h y).symm.trans ((congrArg p taken).trans (h b))
  refine ⟨y, ⟨eq _ Sender.state fun _ => rfl, eq _ Sender.carried fun _ => rfl, eq _ Sender.phase fun _ => rfl,
    eq _ Sender.chain fun _ => rfl, eq _ Sender.motor fun _ => rfl, eq _ Sender.motorTimer fun _ => rfl,
    eq _ Sender.runOnTimer fun _ => rfl, eq _ Sender.breakPending fun _ => rfl, eq _ Sender.completed fun _ => rfl,
    eq _ Sender.missed fun _ => rfl, eq _ Sender.breaksIn fun _ => rfl⟩, circuit⟩

/-- R135: a record that has left the queue or the chain is begun. -/
theorem carryRecord_begun {s u : State} {c : CircuitNo} {r : Rec} {q chain : List Rec}
    (circuit : u.circuits[c] =
      { s.circuits[c] with queue := q, sender := { s.circuits[c].sender with chain := chain } })
    (lines : ∀ f, firstLines u f r = firstLines s f r)
    (took : ∀ y : Circuit, y.sender.carried = .record r → y.queue = q → y.sender.chain = chain →
      TookUp s c s.circuits[c] y) :
    Begun s c s.circuits[c].sender.motor s.circuits[c] (carryRecord u c r false).circuits[c] := by
  obtain ⟨y, begins, carries⟩ := carryRecord_circuit u c r false
  have first := @carryRecord_first u c r
  rw [circuit] at begins carries first
  rw [carries] at first ⊢
  exact
    { desc := ⟨rfl, rfl⟩
      carrying := begins.state
      took := took _ begins.carried rfl begins.chain
      first := by
        intro r' f h record ref eq room
        obtain rfl : r = r' := Carried.record.inj (begins.carried.symm.trans record)
        exact first ref ((congrArg List.head? (lines f)).trans eq) room
      motor := begins.motor
      timers := begins.timers
      noBreak := begins.noBreak
      counters := begins.counters }

/-- R135: with work on the circuit, a selection begins it. -/
theorem select_begun {s : State} {c : CircuitNo} (work : hasWork s c = true) :
    Begun s c s.circuits[c].sender.motor s.circuits[c] (select s c).circuits[c] := by
  cases chosen : choose s c with
  | nothing => exact absurd chosen (of_decide_eq_true work)
  | report =>
    obtain ⟨y, ⟨state, carried, phase, chain, motor, motorTimer, runOn, noBreak, counters⟩, circuit⟩ :=
      carryReport_circuit s c
    have eq : (select s c).circuits[c] = { s.circuits[c] with sender := y } := by
      simp only [select, chosen]
      exact circuit
    rw [eq]
    exact
      { desc := ⟨rfl, rfl⟩
        carrying := state
        took := by simp only [TookUp, chosen]; exact ⟨carried, phase, trivial, chain⟩
        first := fun r _ _ record => nomatch carried.symm.trans record
        motor := motor
        timers := ⟨motorTimer, runOn⟩
        noBreak := noBreak
        counters := counters }
  | start i =>
    obtain ⟨r, queued⟩ := choose_start chosen
    have eq : select s c = carryRecord (modQueue s c fun q => withoutAt q i) c r false := by
      simp only [select, chosen, queued]
    rw [eq]
    refine carryRecord_begun (modAt_same _ c _) (fun _ => rfl) ?_
    intro y carried queue chain
    simp only [TookUp, chosen]
    exact ⟨r, queued, carried, queue, chain⟩
  | resume r =>
    have eq : select s c = carryRecord (modSender s c fun x => { x with chain := x.chain.dropLast }) c r false := by
      simp only [select, chosen]
    rw [eq]
    refine carryRecord_begun (modAt_same _ c _) (fun _ => rfl) ?_
    intro y carried queue chain
    simp only [TookUp, chosen]
    have top := choose_resume chosen
    exact ⟨carried, queue, by rw [chain]; exact (List.dropLast_append_getLast? _ top).symm⟩

/-! ### A sender offered work (R133, R134, R136) -/

theorem select_pausing {s : State} {c : CircuitNo} (pausing : s.circuits[c].sender.state = .pausing)
    (none : hasWork s c = false) : select s c = s := by
  have chosen : choose s c = .nothing := by simpa [hasWork] using none
  simp only [select, chosen, pausing, if_true]

/-- A circuit as a selection sees it: what it begins with is told of both alike. -/
structure SameWork (x x' : Circuit) : Prop where
  desc : x'.desc = x.desc ∧ x'.outOfService = x.outOfService
  queue : x'.queue = x.queue
  chain : x'.sender.chain = x.sender.chain
  column : x'.sender.column = x.sender.column
  counters : x'.sender.completed = x.sender.completed ∧ x'.sender.missed = x.sender.missed ∧
    x'.sender.breaksIn = x.sender.breaksIn

theorem TookUp.congr {s u : State} {c : CircuitNo} {x x' y : Circuit} (h : TookUp u c x' y)
    (chosen : choose u c = choose s c) (queue : x'.queue = x.queue) (chain : x'.sender.chain = x.sender.chain) :
    TookUp s c x y := by
  rw [TookUp, chosen, queue, chain] at h
  exact h

theorem Begun.congr {s u : State} {c : CircuitNo} {motor : Bool} {x x' y : Circuit} (h : Begun u c motor x' y)
    (chosen : choose u c = choose s c) (lines : ∀ f r, firstLines u f r = firstLines s f r) (same : SameWork x x') :
    Begun s c motor x y where
  desc := ⟨h.desc.1.trans same.desc.1, h.desc.2.trans same.desc.2⟩
  carrying := h.carrying
  took := h.took.congr chosen same.queue same.chain
  first := fun r f g record ref first room => h.first r f g record ref ((congrArg List.head? (lines f r)).trans first)
    fun e => room (same.column.symm.trans (e.trans (congrArg CircuitDesc.carriage same.desc.1)))
  motor := h.motor
  timers := h.timers
  noBreak := h.noBreak
  counters := ⟨h.counters.1.trans same.counters.1, h.counters.2.1.trans same.counters.2.1,
    h.counters.2.2.trans same.counters.2.2⟩

theorem hasWork_congr {s u : State} {c : CircuitNo} (chosen : choose u c = choose s c) : hasWork u c = hasWork s c := by
  simp only [hasWork, chosen]

/-- R134: with work, STARTING is entered; where the motor start delay is 0, the work is begun. -/
theorem enterStarting_started {s : State} {c : CircuitNo} (work : hasWork s c = true) :
    Started s c s.circuits[c] (enterStarting s c).circuits[c] := by
  let g : Sender → Sender := fun x =>
    { x with state := .starting, motor := true, belief := .unknown, motorTimer := some s.circuits[c].desc.motorDelay }
  unfold Started
  split
  · next soon =>
    let u := modSender (modSender s c g) c fun x => { x with motorTimer := none }
    have starts : enterStarting s c = select u c := if_pos soon
    have circuit : u.circuits[c] = { s.circuits[c] with sender := { g s.circuits[c].sender with motorTimer := none } } :=
      
      (modAt_same _ c _).trans (congrArg (fun x : Circuit => { x with sender := { x.sender with motorTimer := none } })
        (modAt_same s.circuits c fun x => { x with sender := g x.sender }))
    have chosen : choose u c = choose s c := (choose_modSender rfl).trans (choose_modSender rfl)
    have begun := select_begun ((hasWork_congr chosen).trans work)
    rw [starts]
    rw [circuit] at begun
    exact begun.congr chosen (fun _ _ => rfl) ⟨⟨rfl, rfl⟩, rfl, rfl, rfl, rfl, rfl, rfl⟩
  · next later =>
    have starts : enterStarting s c = modSender s c g := if_neg later
    rw [starts]
    exact modAt_same _ c _

/-- R133, R136. -/
theorem offer_offered (s : State) (c : CircuitNo) : Offered s c s.circuits[c] (offer s c).circuits[c] := by
  cases state : s.circuits[c].sender.state with
  | stopped =>
    simp only [Offered, state, offer, workTest, true_and]
    split
    · next h => exact enterStarting_started h.2
    · rfl
  | pausing =>
    simp only [Offered, state, offer]
    split
    · next work => exact select_begun work
    · next none => exact congrArg (fun u : State => u.circuits[c]) (select_pausing state (Bool.eq_false_iff.mpr none))
  | starting => simp only [Offered, state, offer]
  | carrying => simp only [Offered, state, offer]
  | closing => simp only [Offered, state, offer]

/-- Where a selection is made and what it begins with does not depend on the lines. -/
theorem Offered.congr {s u : State} {c : CircuitNo} {x y : Circuit} (h : Offered u c x y)
    (chosen : choose u c = choose s c) (lines : ∀ f r, firstLines u f r = firstLines s f r) : Offered s c x y := by
  have same : SameWork x x := ⟨⟨rfl, rfl⟩, rfl, rfl, rfl, rfl, rfl, rfl⟩
  have work := hasWork_congr chosen
  cases state : x.sender.state with
  | stopped =>
    simp only [Offered, state, work, Started] at h ⊢
    split
    · next test =>
      rw [if_pos test] at h
      split
      · next soon => rw [if_pos soon] at h; exact h.congr chosen lines same
      · next later => rw [if_neg later] at h; exact h
    · next test => rw [if_neg test] at h; exact h
  | pausing =>
    simp only [Offered, state, work] at h ⊢
    split
    · next test => rw [if_pos test] at h; exact h.congr chosen lines same
    · next test => rw [if_neg test] at h; exact h
  | starting => simp only [Offered, state] at h ⊢; exact h
  | carrying => simp only [Offered, state] at h ⊢; exact h
  | closing => simp only [Offered, state] at h ⊢; exact h

/-! ### Placing a report (R172) -/

theorem placeReply_room {s : State} (t : Text) (room : s.mgmt.reports.length < 8) : placeReply s t = pushReport s t := by
  have : reportRoom s = true := decide_eq_true room
  simp only [placeReply, this, if_true]

theorem pushReport_mgmt (s : State) (t : Text) :
    (pushReport s t).mgmt = { s.mgmt with reports := s.mgmt.reports ++ [t] } := (offer_only _ _).mgmt

/-- R172: a report placed, however the lines stand. -/
theorem pushReport_placed (s : State) (lines : Vector Line 24) (t : Text) :
    ReportPlaced t s { pushReport { s with lines := lines } t with lines := s.lines } := by
  let w : State := { s with lines := lines, mgmt := { s.mgmt with reports := s.mgmt.reports ++ [t] } }
  have only : OnlyCircuit s.mgmt.reportCircuit w (offer w s.mgmt.reportCircuit) := offer_only _ _
  have offered := offer_offered w s.mgmt.reportCircuit
  constructor
  · exact congrArg (fun u : State => { u with lines := s.lines }) only
  · exact offered.congr (choose_congr rfl rfl rfl rfl rfl rfl) fun _ _ => rfl

end Sys2Proof.Machine
/-! ## Opening marks between messages and header characters (O10, O11) -/

namespace Sys2Proof.Machine

open Sys2Proof

theorem exec_huntChar {s : State} {l : LineNo} {v : BitVec 7} {h : House} {sh : Shift} (arrived : arrives s l v (some h) sh)
    (hunt : s.lines[l].framer.state = .hunt) :
    exec (.characterArrives l v true) s = .next (atOnce (rested (huntChar (shifted s l sh) l h) l)) := by
  have framer : (shifted s l sh).lines[l].framer.state = .hunt := by rw [shifted_framer]; exact hunt
  rw [exec_character arrived]
  simp only [framerChar, framer]

theorem inService_of_arrives {s : State} {l : LineNo} {v : BitVec 7} {o : Option House} {sh : Shift}
    (arrived : arrives s l v o sh) : lineInService s.lines[l] = true := canArrive_inService arrived.2.1

section Hunt

variable {s : State} {l : LineNo} {v : BitVec 7} {h : House} {sh : Shift}

/-- R18: a slash is held while fewer than two are. -/
theorem exec_hunt_slash (arrived : arrives s l v (some houseSlash) sh) (hunt : s.lines[l].framer.state = .hunt)
    (room : s.lines[l].framer.held ≠ 2) :
    exec (.characterArrives l v true) s = .next (atOnce
      (withLine s l sh { s.lines[l].framer with held := s.lines[l].framer.held + 1 } s.lines[l].counters)) := by
  rw [exec_huntChar arrived hunt]
  simp only [huntChar, if_true, shifted_framer, if_neg room]
  rw [rested_modFramer (inService_of_arrives arrived)]

/-- R18: a third slash in a row is stray. -/
theorem exec_hunt_third (arrived : arrives s l v (some houseSlash) sh) (hunt : s.lines[l].framer.state = .hunt)
    (full : s.lines[l].framer.held = 2) :
    exec (.characterArrives l v true) s = .next (atOnce (withLine s l sh s.lines[l].framer
      { s.lines[l].counters with stray := min (s.lines[l].counters.stray + 1) 65535 })) := by
  rw [exec_huntChar arrived hunt]
  simp only [huntChar, if_true, shifted_framer, if_pos full, countStray, modLineCounters]
  rw [rested_modLine (inService_of_arrives arrived) rfl]
  rfl

/-- R18: a character that completes no mark is stray, with the slashes held before it. -/
theorem exec_hunt_stray (arrived : arrives s l v (some h) sh) (hunt : s.lines[l].framer.state = .hunt)
    (other : h ≠ houseSlash) (noMark : ¬(s.lines[l].framer.held = 2 ∧ (h = ch 'C' ∨ h = ch 'M'))) :
    exec (.characterArrives l v true) s = .next (atOnce (withLine s l sh { s.lines[l].framer with held := 0 }
      { s.lines[l].counters with
        stray := min (s.lines[l].counters.stray + (s.lines[l].framer.held.val + 1)) 65535 })) := by
  have noCopy : ¬(s.lines[l].framer.held = 2 ∧ h = ch 'C') := fun e => noMark ⟨e.1, Or.inl e.2⟩
  have noManagement : ¬(s.lines[l].framer.held = 2 ∧ h = ch 'M') := fun e => noMark ⟨e.1, Or.inr e.2⟩
  rw [exec_huntChar arrived hunt]
  simp only [huntChar, if_neg other, shifted_framer, if_neg noCopy, if_neg noManagement, countStray, modLineCounters,
    modFramer, modLine_modLine]
  rw [rested_modLine (inService_of_arrives arrived) rfl]
  rfl

/-- R18: with two slashes held, an opening mark is taken. -/
theorem exec_hunt_copy (arrived : arrives s l v (some (ch 'C')) sh) (hunt : s.lines[l].framer.state = .hunt)
    (full : s.lines[l].framer.held = 2) :
    exec (.characterArrives l v true) s = .next (atOnce (rested (takeOpening (shifted s l sh) l .copy) l)) := by
  have other : ch 'C' ≠ houseSlash := by decide
  rw [exec_huntChar arrived hunt]
  simp only [huntChar, if_neg other, shifted_framer, full, true_and, if_true]

theorem exec_hunt_management (arrived : arrives s l v (some (ch 'M')) sh) (hunt : s.lines[l].framer.state = .hunt)
    (full : s.lines[l].framer.held = 2) :
    exec (.characterArrives l v true) s = .next (atOnce (rested (takeOpening (shifted s l sh) l .management) l)) := by
  have other : ch 'M' ≠ houseSlash := by decide
  have noCopy : ch 'M' ≠ ch 'C' := by decide
  rw [exec_huntChar arrived hunt]
  simp only [huntChar, if_neg other, shifted_framer, full, true_and, if_true, if_neg noCopy]

end Hunt

/-- R19: HEADER is entered, the messages taken counted once more. -/
theorem rested_inHeader {s : State} {l : LineNo} {sh : Shift} (kind : MessageKind)
    (service : lineInService s.lines[l] = true) :
    rested (modLine (shifted s l sh) l fun x =>
        { x with
          counters := { x.counters with messagesTaken := count x.counters.messagesTaken }
          framer := Framer.inHeader kind }) l =
      withLine s l sh (Framer.inHeader kind)
        { s.lines[l].counters with messagesTaken := min (s.lines[l].counters.messagesTaken + 1) 65535 } :=
  rested_modLine service rfl

theorem rested_takeOpening_copy {s : State} {l : LineNo} {sh : Shift} (service : lineInService s.lines[l] = true) :
    rested (takeOpening (shifted s l sh) l .copy) l = withLine s l sh (Framer.inHeader .copy)
      { s.lines[l].counters with messagesTaken := min (s.lines[l].counters.messagesTaken + 1) 65535 } := by
  rw [takeOpening_copy]
  exact rested_inHeader .copy service

/-- R159: HEADER is entered with the buffer OPENED for the line. -/
theorem rested_takeOpening_granted {s : State} {l : LineNo} {sh : Shift} (service : lineInService s.lines[l] = true)
    (free : s.mgmt.buffer = .free) :
    rested (takeOpening (shifted s l sh) l .management) l = { withLine s l sh (Framer.inHeader .management)
        { s.lines[l].counters with messagesTaken := min (s.lines[l].counters.messagesTaken + 1) 65535 } with
      mgmt := { s.mgmt.released with buffer := .opened, holder := some l } } := by
  have granted : (shifted s l sh).mgmt.buffer = .free := free
  rw [takeOpening_granted granted]
  exact congrArg (fun u : State => { u with mgmt := { s.mgmt.released with buffer := .opened, holder := some l } })
    (rested_inHeader .management service)

/-- What a change of one line leaves of the lines is told by the lines alone. -/
theorem modLine_lines_congr {s u : State} (h : u.lines = s.lines) (l : LineNo) (f : Line → Line) :
    (modLine u l f).lines = (modLine s l f).lines :=
  congrArg (fun lines : Vector Line 24 => modAt lines l f) h

theorem rested_lines {s u : State} (h : u.lines = s.lines) (l : LineNo) : (rested u l).lines = (rested s l).lines :=
  modLine_lines_congr h l _

theorem pushReport_lines (s : State) (t : Text) : (pushReport s t).lines = s.lines := (pushReport_report s t).delivery.lines

/-- R160: where the buffer is held, the message is refused and passed over. -/
theorem rested_turnedAway {s : State} {l : LineNo} {sh : Shift} (service : lineInService s.lines[l] = true) :
    rested (toDiscard (turnedAway (shifted s l sh) l) l true) l = withLine s l sh
      { s.lines[l].framer with state := .discard, held := 0, lineStart := true, header := [], takeRef := none }
      { s.lines[l].counters with
        messagesTaken := min (s.lines[l].counters.messagesTaken + 1) 65535
        refused := min (s.lines[l].counters.refused + 1) 65535 } := by
  simp only [toDiscard, turnedAway, marked, modFramer, modLineCounters, modLine_modLine]
  exact rested_modLine service rfl

/-- R160, R172: with room for a report, the refusal places BUSY. -/
theorem rested_takeOpening_refused {s : State} {l : LineNo} {sh : Shift} (service : lineInService s.lines[l] = true)
    (held : s.mgmt.buffer ≠ .free) (room : s.mgmt.reports.length < 8) :
    ∃ u, rested (takeOpening (shifted s l sh) l .management) l = u ∧
      u.lines = modAt s.lines l (afterCharacter sh
        { s.lines[l].framer with state := .discard, held := 0, lineStart := true, header := [], takeRef := none }
        { s.lines[l].counters with
          messagesTaken := min (s.lines[l].counters.messagesTaken + 1) 65535
          refused := min (s.lines[l].counters.refused + 1) 65535 }) ∧
      u.mgmt = { s.mgmt with reports := s.mgmt.reports ++ [shortReplyText none l "BUSY"] } ∧
      ReportPlaced (shortReplyText none l "BUSY") s { u with lines := s.lines } := by
  let w := turnedAway (shifted s l sh) l
  have busy : takeOpening (shifted s l sh) l .management = toDiscard (pushReport w (shortReplyText none l "BUSY")) l true := by
    rw [takeOpening_refused (s := shifted s l sh) held, placeReply_room (s := w) _ room, shortReply_eq]
  rw [busy]
  refine ⟨_, rfl, ?_, pushReport_mgmt w _, pushReport_placed s w.lines _⟩
  have lines : (toDiscard (pushReport w (shortReplyText none l "BUSY")) l true).lines = (toDiscard w l true).lines :=
    modLine_lines_congr (pushReport_lines w _) l _
  exact (rested_lines lines l).trans (congrArg State.lines (rested_turnedAway service))

/-- Settles O10: the cases of `huntChar`, its opening marks by the ways of `takeOpening`. -/
theorem huntFindsOpeningMarks : Obligations.HuntFindsOpeningMarks := by
  unfold Obligations.HuntFindsOpeningMarks
  refine ⟨fun s l v h sh arrived hunt => ⟨?_, ?_, exec_hunt_stray arrived hunt⟩, ?_⟩
  · rintro rfl room
    exact exec_hunt_slash arrived hunt room
  · rintro rfl full
    exact exec_hunt_third arrived hunt full
  · rintro s l v h sh arrived hunt full k rfl
    have service := inService_of_arrives arrived
    refine ⟨?_, ?_, ?_⟩
    · rintro rfl
      rw [exec_hunt_copy arrived hunt full, rested_takeOpening_copy service]
    · rintro rfl free
      rw [exec_hunt_management arrived hunt full, rested_takeOpening_granted service free]
    · rintro rfl held room
      obtain ⟨u, eq, lines, -, placed⟩ := rested_takeOpening_refused (sh := sh) service held room
      rw [exec_hunt_management arrived hunt full, eq]
      refine ⟨u, rfl, ?_, ?_, placed⟩
      · rw [lines]
        exact modAt_same _ l _
      · intro m other
        rw [lines]
        exact modAt_other _ _ other

end Sys2Proof.Machine
/-! ## Header characters and header faults (O11) -/

namespace Sys2Proof.Machine

open Sys2Proof

/-! ### What a refused reply and a drop leave of the latch -/

/-- R172: a reply can raise REPORT_DROPPED alone. -/
theorem placeReply_occurrence (s : State) (t : Text) {k : EventKind} (other : k ≠ .reportDropped) :
    occurrence (placeReply s t) k = occurrence s k := by
  unfold placeReply
  split
  · exact occurrence_of_latch (pushReport_latch s t) k
  · exact occurrence_raise_other s .none other

theorem dropMessage_occurrence (s : State) {k : EventKind} (other : k ≠ .reportDropped) :
    occurrence (dropMessage s) k = occurrence s k := by
  unfold dropMessage
  split
  · rfl
  · exact placeReply_occurrence s _ other

/-! ### A header fault (R23, R25) -/

section Fault

variable {s : State} {l : LineNo} {sh : Shift} {b : Bool}

theorem raise_lines (s : State) (k : EventKind) (d : Detail) : (raise s k d).lines = s.lines :=
  (raise_report s k d).delivery.lines

/-- R23: a fault in a copy header is counted. -/
theorem rested_copyHeaderFault (service : lineInService s.lines[l] = true) :
    (rested (copyHeaderFault (shifted s l sh) l b) l).lines = modAt s.lines l (afterCharacter sh
      { s.lines[l].framer with state := .discard, held := 0, lineStart := b, takeRef := none }
      { s.lines[l].counters with headerFaults := min (s.lines[l].counters.headerFaults + 1) 65535 }) := by
  let f : Line → Line := fun x =>
    { x with
      counters := { x.counters with headerFaults := count x.counters.headerFaults }
      framer := { x.framer with state := .discard, held := 0, lineStart := b, takeRef := none } }
  have one : copyHeaderFault (shifted s l sh) l b = modLine (raise (shifted s l sh) .headerFault (.line l)) l f :=
    modLine_modLine _ l _ _
  rw [one, rested_lines (modLine_lines_congr (raise_lines _ _ _) l f) l]
  exact congrArg State.lines (rested_modLine service rfl)

/-- R25: a fault in a management header counts nothing. -/
theorem rested_managementHeaderFault (service : lineInService s.lines[l] = true) :
    (rested (managementHeaderFault (shifted s l sh) l b) l).lines = modAt s.lines l (afterCharacter sh
      { s.lines[l].framer with state := .discard, held := 0, lineStart := b, takeRef := none } s.lines[l].counters) := by
  have same : (dropMessage (raise (shifted s l sh) .headerFault (.line l))).lines = (shifted s l sh).lines :=
    (dropMessage_same _).lines.trans (raise_lines _ _ _)
  rw [managementHeaderFault, toDiscard, modFramer, rested_lines (modLine_lines_congr same l _) l]
  exact congrArg State.lines (rested_modLine service rfl)

theorem copyHeaderFault_occurred (s : State) (l : LineNo) (b : Bool) :
    Occurred .headerFault (.line l) s (copyHeaderFault s l b) :=
  (raise_occurred s .headerFault (.line l)).congr rfl rfl

theorem managementHeaderFault_occurred (s : State) (l : LineNo) (b : Bool) :
    Occurred .headerFault (.line l) s (managementHeaderFault s l b) :=
  (raise_occurred s .headerFault (.line l)).congr rfl (dropMessage_occurrence _ (by decide))

/-- R25: the buffer is given up. -/
theorem managementHeaderFault_dropped (s : State) (l : LineNo) (b : Bool) : Dropped (managementHeaderFault s l b) :=
  dropMessage_dropped _

end Fault

theorem rested_only (w : State) (l : LineNo) : LineOnly l w (rested w l) := modLine_only w l _ fun _ => ⟨rfl, rfl⟩

theorem shifted_only (s : State) (l : LineNo) (sh : Shift) : LineOnly l s (shifted s l sh) :=
  modLine_only s l _ fun _ => ⟨rfl, rfl⟩

/-- A line that hands a character to its framer has changed alone, if its framer changes it alone. -/
theorem LineOnly.rested {s w : State} {l : LineNo} {sh : Shift} (h : LineOnly l (shifted s l sh) w) :
    LineOnly l s (rested w l) := (rested_only w l).after (h.after (shifted_only s l sh))

theorem exec_headerChar {s : State} {l : LineNo} {v : BitVec 7} {h : House} {sh : Shift} (arrived : arrives s l v (some h) sh)
    (header : s.lines[l].framer.state = .header) :
    exec (.characterArrives l v true) s = .next (atOnce (rested (headerChar (shifted s l sh) l h) l)) := by
  have framer : (shifted s l sh).lines[l].framer.state = .header := by rw [shifted_framer]; exact header
  rw [exec_character arrived]
  simp only [framerChar, framer]

/-- Settles O11: the cases of `headerChar` but the header's end. -/
theorem headerCharactersAreCollected : Obligations.HeaderCharactersAreCollected := by
  unfold Obligations.HeaderCharactersAreCollected
  intro s l v h sh arrived header notEnd
  have service := inService_of_arrives arrived
  have length : (shifted s l sh).lines[l].framer.header.length = s.lines[l].framer.header.length := by rw [shifted_framer]
  rw [exec_headerChar arrived header]
  refine ⟨fun function => ?_, fun text room => ?_, fun text full => ?_⟩
  · have dropped : headerChar (shifted s l sh) l h = shifted s l sh := by
      simp only [headerChar, if_neg notEnd, function, if_true]
    rw [dropped]
    have same : modFramer (shifted s l sh) l (fun f => f) = shifted s l sh := by
      rw [modFramer, shifted, modLine_modLine]
    rw [← same, rested_modFramer service]
  · have collected : headerChar (shifted s l sh) l h =
        modFramer (shifted s l sh) l fun f => { f with header := f.header ++ [h] } := by
      have room' : s.lines[l].framer.header.length < Config.headerLimit := room
      simp only [headerChar, if_neg notEnd, text, Bool.false_eq_true, if_false, length, if_pos room']
    rw [collected, rested_modFramer service]
  · have faulty : headerChar (shifted s l sh) l h = headerFault (shifted s l sh) l false := by
      have full' : ¬ s.lines[l].framer.header.length < Config.headerLimit := Nat.not_lt.mpr full
      simp only [headerChar, if_neg notEnd, text, Bool.false_eq_true, if_false, length, if_neg full']
    have only := headerChar_only (shifted s l sh) l h
    rw [faulty] at only ⊢
    cases kind : s.lines[l].framer.kind with
    | copy =>
      have fault : headerFault (shifted s l sh) l false = copyHeaderFault (shifted s l sh) l false := by
        simp only [headerFault, shifted_framer, kind]
      rw [fault] at only ⊢
      refine ⟨_, rfl, ?_, fun e => (nomatch e), ?_, only.rested⟩
      · rw [rested_copyHeaderFault service]
        exact modAt_same _ l _
      · exact (copyHeaderFault_occurred (shifted s l sh) l false).congr rfl rfl
    | management =>
      have fault : headerFault (shifted s l sh) l false = managementHeaderFault (shifted s l sh) l false := by
        simp only [headerFault, shifted_framer, kind]
      obtain ⟨free, holder, -, -⟩ := managementHeaderFault_dropped (shifted s l sh) l false
      rw [fault] at only ⊢
      refine ⟨_, rfl, ?_, fun _ => ⟨free, holder⟩, ?_, only.rested⟩
      · rw [rested_managementHeaderFault service]
        exact modAt_same _ l _
      · exact (managementHeaderFault_occurred (shifted s l sh) l false).congr rfl rfl

end Sys2Proof.Machine
/-! ## Management messages (O17) -/

namespace Sys2Proof.Machine

open Sys2Proof

/-! ### Text in a body (R26, R27) -/

/-- The framer of line `l` is in a body. -/
def InBody (f : Framer) : Prop := f.state = .copyBody ∨ f.state = .manageBody ∨ f.state = .discard

theorem framerChar_body {between : State → State} {s : State} {l : LineNo} (h : House) (body : InBody s.lines[l].framer) :
    framerChar between s l h = bodyChar between s l h := by
  obtain state | state | state := body <;> simp only [framerChar, state]

theorem exec_bodyChar {s : State} {l : LineNo} {v : BitVec 7} {h : House} {sh : Shift} (arrived : arrives s l v (some h) sh)
    (body : InBody s.lines[l].framer) :
    exec (.characterArrives l v true) s =
      .next (atOnce (rested (bodyChar (betweenDropAndRequest l) (shifted s l sh) l h) l)) := by
  have body' : InBody (shifted s l sh).lines[l].framer := by rw [shifted_framer]; exact body
  rw [exec_character arrived, framerChar_body h body']

/-- What is passed on leaves the lines as they are. -/
theorem passed_lines (s : State) (l : LineNo) (j : Nat) (h : House) :
    (passOn (passSlashes s l j) l h).lines = s.lines :=
  (passOn_same _ l h).lines.trans (passSlashes_same s l j).lines

theorem modFramer_congr {s : State} {l : LineNo} {f g : Framer → Framer} (h : f s.lines[l].framer = g s.lines[l].framer) :
    modFramer s l f = modFramer s l g := modLine_congr (congrArg (fun y => { s.lines[l] with framer := y }) h)

/-- R26: with nothing held, a function leaves the line start as it was. -/
theorem afterText_none_held {f : Framer} (h : House) (held : f.held = 0) :
    { f with lineStart := if h = houseNL then true else if isFunction h then f.lineStart else false } = afterText f h := by
  obtain ⟨state, kind, held', lineStart, header, takeRef⟩ := f
  obtain rfl : held' = 0 := held
  by_cases nl : h = houseNL <;> cases function : isFunction h <;> simp [afterText, nl, function]

theorem afterText_some_held {f : Framer} (h : House) (held : f.held ≠ 0) :
    { f with held := 0, lineStart := decide (h = houseNL) } = afterText f h := by
  simp only [afterText, decide_eq_false held, Bool.false_and, Bool.or_false]

/-- R26, R27: text, with the slashes held before it, is passed on. -/
theorem bodyChar_text {between : State → State} {s : State} {l : LineNo} {h : House} (text : IsText s.lines[l].framer h) :
    bodyChar between s l h = modFramer (passOn (passSlashes s l s.lines[l].framer.held.val) l h) l
      fun _ => afterText s.lines[l].framer h := by
  have framer (j : Nat) : (passOn (passSlashes s l j) l h).lines[l].framer = s.lines[l].framer := by
    rw [passed_lines]
  obtain ⟨held, noSlash⟩ | ⟨held, noSlash⟩ | ⟨held, noC, noM, noE⟩ := text
  · have char : bodyChar between s l h = modFramer (passOn s l h) l fun f =>
        { f with lineStart := if h = houseNL then true else if isFunction h then f.lineStart else false } := by
      simp only [bodyChar, held, if_true, if_neg noSlash]
    rw [char, held]
    refine modFramer_congr (s := passOn s l h) ?_
    rw [(passOn_same s l h).lines]
    exact afterText_none_held h held
  · have char : bodyChar between s l h = decide27 s l 1 h := by
      have one : (1 : Fin 3) ≠ 0 := by decide
      simp only [bodyChar, held, if_neg one, if_true, if_neg noSlash]
    rw [char, held]
    refine modFramer_congr (s := passOn (passSlashes s l 1) l h) ?_
    rw [framer]
    exact afterText_some_held h (held.trans_ne (by decide))
  · have char : bodyChar between s l h = decide27 s l 2 h := by
      have none : (2 : Fin 3) ≠ 0 := by decide
      have one : (2 : Fin 3) ≠ 1 := by decide
      simp only [bodyChar, held, if_neg none, if_neg one, if_neg noC, if_neg noM, if_neg noE]
    rw [char, held]
    refine modFramer_congr (s := passOn (passSlashes s l 2) l h) ?_
    rw [framer]
    exact afterText_some_held h (held.trans_ne (by decide))

/-! ### Request lines (R27, R162) -/

/-- R27, R162: what a character passed on in MANAGE-BODY makes of the message. -/
def requestChar (h : House) (m : Mgmt) : Mgmt :=
  if h = houseNL then endRequestLine m else if isFunction h then m else collectChar h m

theorem passOn_manageBody {s : State} {l : LineNo} (body : s.lines[l].framer.state = .manageBody) (h : House) :
    passOn s l h = modMgmt s (requestChar h) := by
  by_cases nl : h = houseNL
  · simp only [passOn, body, if_pos nl, modMgmt, requestChar]
  · cases function : isFunction h
    · simp only [passOn, body, if_neg nl, function, modMgmt, requestChar, Bool.false_eq_true, if_false]
    · simp only [passOn, body, if_neg nl, function, modMgmt, requestChar, if_true]

theorem passSlashes_manageBody {l : LineNo} (j : Nat) {s : State} (body : s.lines[l].framer.state = .manageBody) :
    passSlashes s l j = modMgmt s (collectChar houseSlash)^[j] := by
  induction j generalizing s with
  | zero => rfl
  | succ j ih =>
    have slash : passOn s l houseSlash = modMgmt s (collectChar houseSlash) := passOn_manageBody body houseSlash
    exact (congrArg (fun u => passSlashes u l j) slash).trans (ih body)

theorem collectChar_tooLong {m : Mgmt} (tooLong : m.tooLong = true) (h : House) : collectChar h m = m := if_pos tooLong

theorem collectChar_room {m : Mgmt} (fits : m.tooLong = false) (room : m.collecting.length < 96) (h : House) :
    collectChar h m = { m with collecting := m.collecting ++ [h] } := by
  have room' : m.collecting.length < Config.requestLength := room
  simp only [collectChar, fits, Bool.false_eq_true, if_false, if_pos room']

theorem collectChar_full {m : Mgmt} (fits : m.tooLong = false) (full : 96 ≤ m.collecting.length) (h : House) :
    collectChar h m = { m with tooLong := true } := by
  have full' : ¬ m.collecting.length < Config.requestLength := Nat.not_lt.mpr full
  simp only [collectChar, fits, Bool.false_eq_true, if_false, if_neg full']

theorem collectChars_tooLong {m : Mgmt} (tooLong : m.tooLong = true) (h : House) (j : Nat) :
    (collectChar h)^[j] m = m := Function.iterate_fixed (collectChar_tooLong tooLong h) j

theorem collectChars_room (h : House) (j : Nat) {m : Mgmt} (fits : m.tooLong = false)
    (room : m.collecting.length + j ≤ 96) :
    (collectChar h)^[j] m = { m with collecting := m.collecting ++ List.replicate j h } := by
  induction j generalizing m with
  | zero => simp
  | succ j ih =>
    have length : (m.collecting ++ [h]).length = m.collecting.length + 1 := List.length_append
    have more : (m.collecting ++ [h]).length + j ≤ 96 := by omega
    rw [Function.iterate_succ_apply, collectChar_room fits (by omega),
      ih (m := { m with collecting := m.collecting ++ [h] }) fits more]
    simp [List.replicate_succ]

/-- R162: what is collected stops at 96 characters. -/
theorem collectChars_over (h : House) (j : Nat) {m : Mgmt} (fits : m.tooLong = false) (start : m.collecting.length ≤ 96)
    (many : 96 < m.collecting.length + j) :
    (collectChar h)^[j] m =
      { m with collecting := (m.collecting ++ List.replicate j h).take 96, tooLong := true } := by
  induction j generalizing m with
  | zero => omega
  | succ j ih =>
    rw [Function.iterate_succ_apply]
    by_cases room : m.collecting.length < 96
    · have length : (m.collecting ++ [h]).length = m.collecting.length + 1 := List.length_append
      have start' : (m.collecting ++ [h]).length ≤ 96 := by omega
      have many' : 96 < (m.collecting ++ [h]).length + j := by omega
      rw [collectChar_room fits room, ih (m := { m with collecting := m.collecting ++ [h] }) fits start' many']
      simp [List.replicate_succ]
    · have full : m.collecting.length = 96 := by omega
      rw [collectChar_full fits (by omega), collectChars_tooLong rfl, List.take_left' full]

/-- R27: text in MANAGE-BODY, with the slashes held before it. -/
theorem exec_manageBody_text {s : State} {l : LineNo} {v : BitVec 7} {h : House} {sh : Shift}
    (arrived : arrives s l v (some h) sh) (body : s.lines[l].framer.state = .manageBody) (text : IsText s.lines[l].framer h) :
    exec (.characterArrives l v true) s = .next (atOnce
      { withLine s l sh (afterText s.lines[l].framer h) s.lines[l].counters with
        mgmt := requestChar h ((collectChar houseSlash)^[s.lines[l].framer.held.val] s.mgmt) }) := by
  have body' : (shifted s l sh).lines[l].framer.state = .manageBody := by rw [shifted_framer]; exact body
  have text' : IsText (shifted s l sh).lines[l].framer h := by rw [shifted_framer]; exact text
  rw [exec_bodyChar arrived (Or.inr (Or.inl body)), bodyChar_text text', passSlashes_manageBody _ body',
    passOn_manageBody (s := modMgmt _ _) body', shifted_framer]
  exact congrArg (fun u : State => Host.Outcome.next (atOnce { u with
      mgmt := requestChar h ((collectChar houseSlash)^[s.lines[l].framer.held.val] s.mgmt) }))
    (rested_modFramer (g := fun _ => afterText s.lines[l].framer h) (inService_of_arrives arrived))

/-- R162: the cases of a request line's characters and its end. -/
theorem requestChar_function {h : House} (function : isFunction h = true) (notEnd : h ≠ houseNL) (m : Mgmt) :
    requestChar h m = m := by
  simp only [requestChar, if_neg notEnd, function, if_true]

theorem requestChar_text {h : House} (text : isFunction h = false) (notEnd : h ≠ houseNL) (m : Mgmt) :
    requestChar h m = collectChar h m := by
  simp only [requestChar, if_neg notEnd, text, Bool.false_eq_true, if_false]

theorem requestChar_end (m : Mgmt) : requestChar houseNL m = endRequestLine m := if_pos rfl

theorem isBlank_iff {t : Text} : t.all (fun x => x = houseSpace) = true ↔ ∀ x ∈ t, x = houseSpace := by
  simp only [List.all_eq_true, decide_eq_true_eq]

theorem endRequestLine_passed {m : Mgmt} (passed : m.tooLong = true ∨ ∀ x ∈ m.collecting, x = houseSpace) :
    endRequestLine m = { m with collecting := [] } := by
  have skipped : (m.tooLong || m.collecting.all fun h => h = houseSpace) = true := by
    rw [Bool.or_eq_true]
    exact passed.imp id isBlank_iff.mpr
  simp only [endRequestLine, skipped, if_true]

theorem notSkipped {m : Mgmt} (fits : m.tooLong = false) (text : ∃ x ∈ m.collecting, x ≠ houseSpace) :
    (m.tooLong || m.collecting.all fun h => h = houseSpace) = false := by
  obtain ⟨x, mem, visible⟩ := text
  rw [fits, Bool.false_or, Bool.eq_false_iff]
  exact fun blank => visible (isBlank_iff.mp blank x mem)

theorem endRequestLine_kept {m : Mgmt} (fits : m.tooLong = false) (text : ∃ x ∈ m.collecting, x ≠ houseSpace)
    (room : m.lines.length < 16) : endRequestLine m = { m with lines := m.lines ++ [m.collecting], collecting := [] } := by
  have room' : m.lines.length < Config.requestLineLimit := room
  simp only [endRequestLine, notSkipped fits text, Bool.false_eq_true, if_false, if_pos room']

theorem endRequestLine_over {m : Mgmt} (fits : m.tooLong = false) (text : ∃ x ∈ m.collecting, x ≠ houseSpace)
    (full : 16 ≤ m.lines.length) : endRequestLine m = { m with collecting := [], tooLong := true } := by
  have full' : ¬ m.lines.length < Config.requestLineLimit := Nat.not_lt.mpr full
  simp only [endRequestLine, notSkipped fits text, Bool.false_eq_true, if_false, if_neg full']

/-! ### The header's end (R25, R161) -/

section HeaderEnd

variable {s : State} {l : LineNo} {v : BitVec 7} {sh : Shift}

/-- R20: the header's NL. -/
theorem exec_headerEnd (arrived : arrives s l v (some houseNL) sh) (header : s.lines[l].framer.state = .header) :
    exec (.characterArrives l v true) s = .next (atOnce (rested (headerEnds (shifted s l sh) l) l)) := by
  have ends : headerChar (shifted s l sh) l houseNL = headerEnds (shifted s l sh) l := by simp only [headerChar, if_true]
  rw [exec_headerChar arrived header, ends]

/-- R25, R161: a header read without fault. -/
theorem rested_headerRead {lv : Level} {tag : Option Text} (service : lineInService s.lines[l] = true)
    (kind : s.lines[l].framer.kind = .management)
    (reads : readManagementHeader s.lines[l].framer.header = some (lv, tag)) :
    rested (headerEnds (shifted s l sh) l) l = { withLine s l sh
        { s.lines[l].framer with state := .manageBody, held := 0, lineStart := true } s.lines[l].counters with
      mgmt := { s.mgmt with buffer := .collecting, level := some lv, tag := tag } } := by
  have read : headerEnds (shifted s l sh) l = modFramer (headerRead (shifted s l sh) lv tag) l
      fun f => { f with state := .manageBody, held := 0, lineStart := true } := by
    simp only [headerEnds, shifted_framer, kind, reads]
  rw [read]
  exact congrArg
    (fun u : State => { u with mgmt := { s.mgmt with buffer := .collecting, level := some lv, tag := tag } })
    (rested_modFramer (sh := sh) (g := fun f => { f with state := .manageBody, held := 0, lineStart := true }) service)

theorem headerEnds_faulty (kind : s.lines[l].framer.kind = .management)
    (fault : readManagementHeader s.lines[l].framer.header = none) :
    headerEnds (shifted s l sh) l = managementHeaderFault (shifted s l sh) l true := by
  simp only [headerEnds, shifted_framer, kind, fault]

end HeaderEnd

/-! ### The closing mark (R30, R164, R165) -/

section Closing

variable {s : State} {l b : LineNo} {sh : Shift}

/-- R30: the framer has returned to HUNT, and the message is EXECUTING. -/
def closing (s : State) (l : LineNo) (sh : Shift) : State :=
  modMgmt (toHunt (shifted s l sh) l) fun m => { m with buffer := .executing }

theorem exec_closing {v : BitVec 7} (arrived : arrives s l v (some (ch 'E')) sh)
    (body : s.lines[l].framer.state = .manageBody) (full : s.lines[l].framer.held = 2) :
    exec (.characterArrives l v true) s = .next (atOnce (rested (messageClosed (toHunt (shifted s l sh) l)) l)) := by
  have none : (2 : Fin 3) ≠ 0 := by decide
  have one : (2 : Fin 3) ≠ 1 := by decide
  have noC : ch 'E' ≠ ch 'C' := by decide
  have noM : ch 'E' ≠ ch 'M' := by decide
  rw [exec_bodyChar arrived (Or.inr (Or.inl body))]
  simp only [bodyChar, shifted_framer, full, if_neg none, if_neg one, if_neg noC, if_neg noM, if_true, takeClosing, body]

/-- The lines once the framer has returned to HUNT. -/
theorem rested_closing (service : lineInService s.lines[l] = true) {u : State} (same : u.lines = (closing s l sh).lines) :
    (rested u l).lines = (withLine s l sh Framer.reset s.lines[l].counters).lines :=
  (rested_lines same l).trans (congrArg State.lines (rested_modFramer (sh := sh) (g := fun _ => Framer.reset) service) :)

theorem closing_clearance (s : State) (l b : LineNo) (sh : Shift) :
    (closing s l sh).lines[b].desc.clearance = s.lines[b].desc.clearance := by
  have cleared : (toHunt (shifted s l sh) l).lines[b].desc.clearance = (shifted s l sh).lines[b].desc.clearance :=
    modAt_keeps _ l b _ (fun x : Line => x.desc.clearance) fun _ => rfl
  exact cleared.trans (modAt_keeps _ l b _ (fun x : Line => x.desc.clearance) fun _ => rfl)

/-- R164, R165: the ways a closed message goes. -/
theorem messageClosed_tooLong {s : State} {b : LineNo} (holder : s.mgmt.holder = some b) (tooLong : s.mgmt.tooLong = true) :
    messageClosed s = releaseBuffer (placeReply (modMgmt s fun m => { m with buffer := .executing })
      (shortReply s.mgmt.tag b (txt "TOO-LONG"))) := by
  simp only [messageClosed, modMgmt_mgmt, holder, tooLong, if_true]

theorem messageClosed_noStanding {s : State} {b : LineNo} (holder : s.mgmt.holder = some b)
    (fits : s.mgmt.tooLong = false) (clearance : s.lines[b].desc.clearance = 0) :
    messageClosed s =
      releaseBuffer (placeReply (raise (modMgmt s fun m => { m with buffer := .executing }) .standingRefused (.line b))
        (lineOf (replyHead s.mgmt.tag b) ++ lineOf (txt "REFUSED STANDING") ++ closingLine)) := by
  simp only [messageClosed, modMgmt_mgmt, modMgmt_lines, holder, fits, Bool.false_eq_true, if_false, clearance, if_true]

/-- R165: a message with standing is executed at its effective level. -/
theorem messageClosed_executes {s : State} {b : LineNo} (holder : s.mgmt.holder = some b)
    (fits : s.mgmt.tooLong = false) (clearance : s.lines[b].desc.clearance ≠ 0) :
    messageClosed s = modMgmt (modMgmt s fun m => { m with buffer := .executing }) fun m =>
      { m with
        effective := some (smallerLevel s.lines[b].desc.clearance (m.level.getD 0))
        reply := some { text := lineOf (replyHead s.mgmt.tag b), omitted := 0 } } := by
  simp only [messageClosed, modMgmt_mgmt, modMgmt_lines, holder, fits, Bool.false_eq_true, if_false, if_neg clearance]

end Closing

/-! ### The replies of a closing mark (R164) -/

theorem replyHeadLine_absent (l : LineNo) : lineOf (replyHead none l) = txt "//R" ++ [] ++ txt " L" ++ decimal l ++ [houseNL] := by
  have mark : txt " L" = [houseSpace, ch 'L'] := rfl
  simp [replyHead, lineOf, lineTok, mark]

theorem replyHeadLine_tagged (g : Text) (l : LineNo) :
    lineOf (replyHead (some g) l) = txt "//R" ++ houseSpace :: g ++ txt " L" ++ decimal l ++ [houseNL] := by
  have mark : txt " L" = [houseSpace, ch 'L'] := rfl
  simp [replyHead, lineOf, lineTok, mark]

section Closed

variable {s : State} {l b : LineNo} {sh : Shift}

/-- R164: a message that is too long is answered TOO-LONG. -/
theorem rested_tooLong (service : lineInService s.lines[l] = true) (holder : s.mgmt.holder = some b)
    (tooLong : s.mgmt.tooLong = true) (room : s.mgmt.reports.length < 8) :
    ∃ u, rested (messageClosed (toHunt (shifted s l sh) l)) l = u ∧
      u.lines = (withLine s l sh Framer.reset s.lines[l].counters).lines ∧
      u.mgmt = { s.mgmt.released with reports := s.mgmt.reports ++ [shortReplyText s.mgmt.tag b "TOO-LONG"] } ∧
      ∀ m, m = { s.mgmt with buffer := .executing } →
        ReportPlaced (shortReplyText s.mgmt.tag b "TOO-LONG")
          { withLine s l sh Framer.reset s.lines[l].counters with mgmt := m }
          { u with mgmt := { m with reports := s.mgmt.reports ++ [shortReplyText s.mgmt.tag b "TOO-LONG"] } } := by
  let report := shortReplyText s.mgmt.tag b "TOO-LONG"
  let p := pushReport (closing s l sh) report
  have answered : messageClosed (toHunt (shifted s l sh) l) = releaseBuffer p := by
    rw [messageClosed_tooLong (s := toHunt (shifted s l sh) l) holder tooLong, shortReply_eq]
    exact congrArg releaseBuffer (placeReply_room (s := closing s l sh) report room)
  have mgmt : p.mgmt = { s.mgmt with buffer := .executing, reports := s.mgmt.reports ++ [report] } := pushReport_mgmt _ _
  have lines := rested_closing (u := releaseBuffer p) service (pushReport_lines (closing s l sh) report)
  rw [answered]
  refine ⟨_, rfl, lines, congrArg Mgmt.released mgmt, ?_⟩
  rintro m rfl
  have placed := pushReport_placed { withLine s l sh Framer.reset s.lines[l].counters with
    mgmt := { s.mgmt with buffer := .executing } } (closing s l sh).lines report
  have eq : { rested (releaseBuffer p) l with
        mgmt := { s.mgmt with buffer := .executing, reports := s.mgmt.reports ++ [report] } } =
      { p with lines := (withLine s l sh Framer.reset s.lines[l].counters).lines } := by
    rw [← lines, ← mgmt]
    rfl
  exact eq ▸ placed

/-- R164: a message from a line of clearance 0 is refused. -/
theorem rested_noStanding (service : lineInService s.lines[l] = true) (holder : s.mgmt.holder = some b)
    (fits : s.mgmt.tooLong = false) (clearance : s.lines[b].desc.clearance = 0) :
    ∃ u, rested (messageClosed (toHunt (shifted s l sh) l)) l = u ∧
      u.lines = (withLine s l sh Framer.reset s.lines[l].counters).lines ∧ Dropped u ∧
      Occurred .standingRefused (.line b) s u ∧
      (s.latch.alertMode = false → s.mgmt.reports.length < 8 → u.mgmt.reports = s.mgmt.reports ++
        [lineOf (replyHead s.mgmt.tag b) ++ lineOf (txt "REFUSED STANDING") ++ closingLine]) := by
  let report := lineOf (replyHead s.mgmt.tag b) ++ lineOf (txt "REFUSED STANDING") ++ closingLine
  let r := raise (closing s l sh) .standingRefused (.line b)
  have answered : messageClosed (toHunt (shifted s l sh) l) = releaseBuffer (placeReply r report) :=
    messageClosed_noStanding (s := toHunt (shifted s l sh) l) holder fits
      ((closing_clearance s l b sh).trans clearance)
  have same : (releaseBuffer (placeReply r report)).lines = (closing s l sh).lines :=
    (placeReply_report r report).delivery.lines.trans (raise_lines _ _ _)
  have occurred : Occurred .standingRefused (.line b) (closing s l sh) r := raise_occurred _ _ _
  rw [answered]
  refine ⟨_, rfl, rested_closing service same, ⟨rfl, rfl, rfl, rfl⟩, ?_, fun quiet room => ?_⟩
  · exact occurred.congr rfl (placeReply_occurrence r report (by decide))
  · have mgmt : r.mgmt = (closing s l sh).mgmt := raise_mgmt_quiet _ _ _ quiet
    have room' : r.mgmt.reports.length < 8 := by rw [mgmt]; exact room
    have placed : (placeReply r report).mgmt.reports = r.mgmt.reports ++ [report] := placeReply_reports room' report
    rw [mgmt] at placed
    exact placed

/-- R165: another message is executed. -/
theorem rested_executes (service : lineInService s.lines[l] = true) (holder : s.mgmt.holder = some b)
    (fits : s.mgmt.tooLong = false) (clearance : s.lines[b].desc.clearance ≠ 0) {lv : Level}
    (level : s.mgmt.level = some lv) :
    rested (messageClosed (toHunt (shifted s l sh) l)) l = { withLine s l sh Framer.reset s.lines[l].counters with
      mgmt := { s.mgmt with
        buffer := .executing
        effective := some (smallerLevel s.lines[b].desc.clearance lv)
        reply := some { text := lineOf (replyHead s.mgmt.tag b), omitted := 0 } } } := by
  have cleared : (toHunt (shifted s l sh) l).lines[b].desc.clearance = s.lines[b].desc.clearance :=
    closing_clearance s l b sh
  have head : s.mgmt.level.getD 0 = lv := by rw [level]; rfl
  rw [messageClosed_executes (s := toHunt (shifted s l sh) l) holder fits (cleared.trans_ne clearance), cleared, ← head]
  exact congrArg (fun u : State => { u with
      mgmt := { s.mgmt with
        buffer := .executing
        effective := some (smallerLevel s.lines[b].desc.clearance (s.mgmt.level.getD 0))
        reply := some { text := lineOf (replyHead s.mgmt.tag b), omitted := 0 } } })
    (rested_modFramer (sh := sh) (g := fun _ => Framer.reset) service)

end Closed

/-- R25, R161: the header's end. -/
theorem managementHeader_ends {s : State} {l : LineNo} {v : BitVec 7} {sh : Shift}
    (arrived : arrives s l v (some houseNL) sh) (header : s.lines[l].framer.state = .header)
    (kind : s.lines[l].framer.kind = .management) (fault : readManagementHeader s.lines[l].framer.header = none) :
    ∃ u, exec (.characterArrives l v true) s = .next (atOnce u) ∧
      u.lines[l] = afterCharacter sh
        { s.lines[l].framer with state := .discard, held := 0, lineStart := true, takeRef := none }
        s.lines[l].counters s.lines[l] ∧
      u.mgmt.buffer = .free ∧ u.mgmt.holder = none ∧ Occurred .headerFault (.line l) s u ∧ LineOnly l s u := by
  have faulty := headerEnds_faulty (sh := sh) kind fault
  have only := headerEnds_only (shifted s l sh) l
  obtain ⟨free, holder, -, -⟩ := managementHeaderFault_dropped (shifted s l sh) l true
  rw [faulty] at only
  rw [exec_headerEnd arrived header, faulty]
  refine ⟨_, rfl, ?_, free, holder, ?_, only.rested⟩
  · rw [rested_managementHeaderFault (inService_of_arrives arrived)]
    exact modAt_same _ l _
  · exact (managementHeaderFault_occurred (shifted s l sh) l true).congr rfl rfl

/-- R27, R162: the slashes held before a character of a request line. -/
theorem heldSlashes_collected (f : Framer) {m q : Mgmt}
    (held : (f.held = 0 ∧ q = m) ∨ (m.tooLong = true ∧ q = m) ∨
      (m.tooLong = false ∧ m.collecting.length + f.held.val ≤ 96 ∧
        q = { m with collecting := m.collecting ++ heldSlashes f }) ∨
      (m.tooLong = false ∧ m.collecting.length ≤ 96 ∧ 96 < m.collecting.length + f.held.val ∧
        q = { m with collecting := (m.collecting ++ heldSlashes f).take 96, tooLong := true })) :
    (collectChar houseSlash)^[f.held.val] m = q := by
  obtain ⟨none, rfl⟩ | ⟨tooLong, rfl⟩ | ⟨fits, room, rfl⟩ | ⟨fits, start, many, rfl⟩ := held
  · rw [none]
    rfl
  · exact collectChars_tooLong tooLong _ _
  · exact collectChars_room _ _ fits room
  · exact collectChars_over _ _ fits start many

/-- R162: the character itself. -/
theorem requestChar_cases (h : House) {q m : Mgmt}
    (cases : (isFunction h = true ∧ m = q) ∨
      (isFunction h = false ∧ h ≠ houseNL ∧ q.tooLong = true ∧ m = q) ∨
      (isFunction h = false ∧ h ≠ houseNL ∧ q.tooLong = false ∧ q.collecting.length < 96 ∧
        m = { q with collecting := q.collecting ++ [h] }) ∨
      (isFunction h = false ∧ h ≠ houseNL ∧ q.tooLong = false ∧ 96 ≤ q.collecting.length ∧
        m = { q with tooLong := true }) ∨
      (h = houseNL ∧ (q.tooLong = true ∨ ∀ x ∈ q.collecting, x = houseSpace) ∧ m = { q with collecting := [] }) ∨
      (h = houseNL ∧ q.tooLong = false ∧ (∃ x ∈ q.collecting, x ≠ houseSpace) ∧ q.lines.length < 16 ∧
        m = { q with lines := q.lines ++ [q.collecting], collecting := [] }) ∨
      (h = houseNL ∧ q.tooLong = false ∧ (∃ x ∈ q.collecting, x ≠ houseSpace) ∧ 16 ≤ q.lines.length ∧
        m = { q with collecting := [], tooLong := true })) :
    requestChar h q = m := by
  obtain ⟨function, rfl⟩ | ⟨text, other, tooLong, rfl⟩ | ⟨text, other, fits, room, rfl⟩ | ⟨text, other, fits, full, rfl⟩ |
    ⟨rfl, passed, rfl⟩ | ⟨rfl, fits, text, room, rfl⟩ | ⟨rfl, fits, text, full, rfl⟩ := cases
  · exact requestChar_function function (by rintro rfl; exact absurd function (by decide)) _
  · rw [requestChar_text text other, collectChar_tooLong tooLong]
  · rw [requestChar_text text other, collectChar_room fits room]
  · rw [requestChar_text text other, collectChar_full fits full]
  · rw [requestChar_end, endRequestLine_passed passed]
  · rw [requestChar_end, endRequestLine_kept fits text room]
  · rw [requestChar_end, endRequestLine_over fits text full]

/-- Settles O17: the header's end, text in the body, and the ways of `messageClosed`. -/
theorem managementMessagesAreReadAndClosed : Obligations.ManagementMessagesAreReadAndClosed := by
  unfold Obligations.ManagementMessagesAreReadAndClosed
  refine ⟨fun s l v sh arrived header kind => ⟨fun lv tag reads => ?_, managementHeader_ends arrived header kind⟩, ?_, ?_⟩
  · rw [exec_headerEnd arrived header, rested_headerRead (inService_of_arrives arrived) kind reads]
  · intro s l v h sh arrived body text q m slashes char
    rw [exec_manageBody_text arrived body text, heldSlashes_collected _ slashes, requestChar_cases h char]
  · rintro s l v sh b clr arrived body full holder rfl closed rfl
    have service := inService_of_arrives arrived
    rw [exec_closing arrived body full]
    refine ⟨fun tooLong room => ?_, fun fits clearance => ?_, fun lv fits clearance level => ?_⟩
    · obtain ⟨u, eq, answered⟩ := rested_tooLong (sh := sh) service holder tooLong room
      exact ⟨u, congrArg (fun w => Host.Outcome.next (atOnce w)) eq, answered⟩
    · obtain ⟨u, eq, lines, ⟨free, noHolder, noLines, -⟩, occurred, report⟩ :=
        rested_noStanding (sh := sh) service holder fits clearance
      refine ⟨u, congrArg (fun w => Host.Outcome.next (atOnce w)) eq, lines, free, noHolder, noLines, occurred, ?_⟩
      intro quiet room
      rw [report quiet room]
      cases s.mgmt.tag with
      | none => rw [replyHeadLine_absent]; simp [lineOf, closingLine]
      | some g => rw [replyHeadLine_tagged]; simp [lineOf, closingLine]
    · rw [rested_executes service holder fits clearance level]
      cases s.mgmt.tag with
      | none => rw [replyHeadLine_absent]; rfl
      | some g => rw [replyHeadLine_tagged]; rfl

end Sys2Proof.Machine
/-! ## Opening marks inside a body (O15) -/

namespace Sys2Proof.Machine

open Sys2Proof

/-- R31: the slashes held are the mark's own, and are not passed on. -/
def unheld (s : State) (l : LineNo) : State := modFramer s l fun f => { f with held := 0 }

section Opening

variable {s : State} {l : LineNo} {sh : Shift}

theorem shifted_unheld (s : State) (l : LineNo) (sh : Shift) :
    modFramer (shifted s l sh) l (fun f => { f with held := 0 }) = shifted (unheld s l) l sh := by
  simp only [modFramer, shifted, unheld, modLine_modLine]

theorem unheld_line (s : State) (l : LineNo) :
    (unheld s l).lines[l] = { s.lines[l] with framer := { s.lines[l].framer with held := 0 } } := modLine_line s l _

/-- The framer that held them is of no account once the character has been handled. -/
theorem withLine_unheld (s : State) (l : LineNo) (sh : Shift) (f : Framer) (k : LineCounters) :
    withLine (unheld s l) l sh f k = withLine s l sh f k := modLine_modLine s l _ _

theorem unheld_inService (service : lineInService s.lines[l] = true) : lineInService (unheld s l).lines[l] = true := by
  rw [unheld_line]
  exact service

theorem unheld_counters (s : State) (l : LineNo) : (unheld s l).lines[l].counters = s.lines[l].counters := by
  rw [unheld_line]

/-- The framer as an opening mark finds it, its message not yet ended. -/
theorem shifted_unheld_framer (s : State) (l : LineNo) (sh : Shift) :
    (shifted (unheld s l) l sh).lines[l].framer = { s.lines[l].framer with held := 0 } := by
  rw [shifted_framer, unheld_line]

/-- R31: an opening mark at the start of a body line. -/
theorem exec_bodyOpening_copy {v : BitVec 7} (arrived : arrives s l v (some (ch 'C')) sh)
    (body : InBody s.lines[l].framer) (full : s.lines[l].framer.held = 2) :
    exec (.characterArrives l v true) s =
      .next (atOnce (rested (takeOpening (endMessageCut (shifted (unheld s l) l sh) l) l .copy) l)) := by
  have none : (2 : Fin 3) ≠ 0 := by decide
  have one : (2 : Fin 3) ≠ 1 := by decide
  have other (p : Prop) : ¬(p ∧ MessageKind.copy = .management) := fun e => nomatch e.2
  rw [exec_bodyChar arrived body]
  simp only [bodyChar, shifted_framer, full, if_neg none, if_neg one, if_true, openingInBody, if_neg (other _),
    shifted_unheld]

theorem exec_bodyOpening_management {v : BitVec 7} (arrived : arrives s l v (some (ch 'M')) sh)
    (body : InBody s.lines[l].framer) (full : s.lines[l].framer.held = 2) :
    exec (.characterArrives l v true) s = .next (atOnce (rested (takeOpening
      (if s.lines[l].framer.state = .manageBody then betweenDropAndRequest l (endMessageCut (shifted (unheld s l) l sh) l)
      else endMessageCut (shifted (unheld s l) l sh) l) l .management) l)) := by
  have none : (2 : Fin 3) ≠ 0 := by decide
  have one : (2 : Fin 3) ≠ 1 := by decide
  have noCopy : ch 'M' ≠ ch 'C' := by decide
  rw [exec_bodyChar arrived body]
  simp only [bodyChar, shifted_framer, full, if_neg none, if_neg one, if_neg noCopy, if_true, openingInBody,
    shifted_unheld, and_true]

/-! ### In DISCARD (R32) -/

theorem endMessageCut_discard (discard : s.lines[l].framer.state = .discard) :
    endMessageCut (shifted (unheld s l) l sh) l = shifted (unheld s l) l sh := by
  refine endMessageCut_idle (Or.inr (Or.inl ?_))
  rw [shifted_unheld_framer]
  exact discard

theorem discard_opens_copy {v : BitVec 7} (arrived : arrives s l v (some (ch 'C')) sh)
    (discard : s.lines[l].framer.state = .discard) (full : s.lines[l].framer.held = 2) :
    exec (.characterArrives l v true) s = .next (atOnce (withLine s l sh (Framer.inHeader .copy)
      { s.lines[l].counters with messagesTaken := min (s.lines[l].counters.messagesTaken + 1) 65535 })) := by
  rw [exec_bodyOpening_copy arrived (Or.inr (Or.inr discard)) full, endMessageCut_discard discard,
    rested_takeOpening_copy (unheld_inService (inService_of_arrives arrived)), withLine_unheld, unheld_counters]

theorem discard_opens_management {v : BitVec 7} (arrived : arrives s l v (some (ch 'M')) sh)
    (discard : s.lines[l].framer.state = .discard) (full : s.lines[l].framer.held = 2) (free : s.mgmt.buffer = .free) :
    exec (.characterArrives l v true) s = .next (atOnce { withLine s l sh (Framer.inHeader .management)
        { s.lines[l].counters with messagesTaken := min (s.lines[l].counters.messagesTaken + 1) 65535 } with
      mgmt := { s.mgmt.released with buffer := .opened, holder := some l } }) := by
  have notManage : ¬ s.lines[l].framer.state = .manageBody := by rw [discard]; decide
  rw [exec_bodyOpening_management arrived (Or.inr (Or.inr discard)) full, if_neg notManage, endMessageCut_discard discard,
    rested_takeOpening_granted (s := unheld s l) (unheld_inService (inService_of_arrives arrived)) free, withLine_unheld,
    unheld_counters]
  rfl

/-! ### The line once the message has ended (R31) -/

/-- What has ended with the message is no part of the lines: the new message is begun on them as they were. -/
theorem rested_opened (kind : MessageKind) {w : State} (service : lineInService s.lines[l] = true)
    (same : w.lines = (shifted (unheld s l) l sh).lines) :
    (rested (modLine w l fun x =>
        { x with
          counters := { x.counters with messagesTaken := count x.counters.messagesTaken }
          framer := Framer.inHeader kind }) l).lines =
      modAt s.lines l (afterCharacter sh (Framer.inHeader kind)
        { s.lines[l].counters with messagesTaken := min (s.lines[l].counters.messagesTaken + 1) 65535 }) := by
  rw [rested_lines (modLine_lines_congr same l _) l, rested_inHeader kind (unheld_inService service), withLine_unheld,
    unheld_counters]
  rfl

/-! ### In COPY-BODY (R31, R71) -/

theorem copyBody_opens_copy {v : BitVec 7} {n : SlotNo} {t : TakeNo} {x : Take}
    (arrived : arrives s l v (some (ch 'C')) sh) (body : s.lines[l].framer.state = .copyBody)
    (full : s.lines[l].framer.held = 2) (takeRef : s.lines[l].framer.takeRef = some (n, t)) (take : takeAt s n t = some x)
    (first : x.replacement = none) :
    ∃ u x', exec (.characterArrives l v true) s = .next (atOnce u) ∧
      u.lines[l] = afterCharacter sh (Framer.inHeader .copy)
        { s.lines[l].counters with messagesTaken := min (s.lines[l].counters.messagesTaken + 1) 65535 } s.lines[l] ∧
      takeAt u n t = some x' ∧ (x'.state = .released ∨ x'.state = .waiting) ∧ x'.fillingLine = none ∧
      x'.current.cut = true ∧ x'.current.text = x.current.text ∧
      u.recency = n :: s.recency.filter (fun m => m ≠ n) ∧ LineOnly l s u := by
  let w := shifted (unheld s l) l sh
  have framer : w.lines[l].framer = { s.lines[l].framer with held := 0 } := shifted_unheld_framer s l sh
  have held : w.lines[l].framer.held = 0 := by rw [framer]
  obtain ⟨⟨x', take', state, fillingLine, -, cut, texts⟩, recency⟩ :=
    endMessageCut_copyBody (s := w) (l := l) (n := n) (t := t) (k := x) (by rw [framer]; exact body)
      (by rw [framer]; exact takeRef) take
  have text := (texts x.current (by simp only [fillingVersion, first])).1 (Or.inl held)
  have same := endMessageCut_same w l
  have only : LineOnly l (shifted s l sh) (takeOpening (endMessageCut w l) l .copy) := by
    refine (takeOpening_only _ l .copy).after ((same.line l).after ?_)
    have : LineOnly l (shifted s l sh) (modFramer (shifted s l sh) l fun f => { f with held := 0 }) := modFramer_only _ l _
    rw [shifted_unheld] at this
    exact this
  have lines := rested_opened .copy (inService_of_arrives arrived) same.lines
  rw [takeOpening_copy] at only
  rw [exec_bodyOpening_copy arrived (Or.inl body) full, takeOpening_copy]
  refine ⟨_, x', rfl, ?_, take', state, fillingLine, cut, text, recency, only.rested⟩
  exact (congrArg (fun lines : Vector Line 24 => lines[l]) lines).trans (modAt_same _ l _)

/-! ### In MANAGE-BODY (R31, R163) -/

section Manage

variable {b : LineNo}

/-- R163: the message is dropped and CUT placed. -/
theorem endMessageCut_manageBody (body : s.lines[l].framer.state = .manageBody) (holder : s.mgmt.holder = some b)
    (room : s.mgmt.reports.length < 8) :
    endMessageCut (shifted (unheld s l) l sh) l =
      releaseBuffer (pushReport (shifted (unheld s l) l sh) (shortReplyText s.mgmt.tag b "CUT")) := by
  let w := shifted (unheld s l) l sh
  have framer : w.lines[l].framer = { s.lines[l].framer with held := 0 } := shifted_unheld_framer s l sh
  have state : w.lines[l].framer.state = .manageBody := by rw [framer]; exact body
  have held : w.lines[l].framer.held = 0 := by rw [framer]
  have holder' : w.mgmt.holder = some b := holder
  have dropped : endMessageCut w l = dropMessage w := by simp only [endMessageCut, state, held]; rfl
  have cut : dropMessage w = releaseBuffer (placeReply w (shortReply w.mgmt.tag b (txt "CUT"))) := by
    simp only [dropMessage, holder']
  refine dropped.trans (cut.trans ?_)
  rw [shortReply_eq]
  exact congrArg releaseBuffer (placeReply_room (s := w) _ room)

theorem pushReport_meanwhile (s : State) (t : Text) : (pushReport s t).meanwhile = s.meanwhile := by
  have only := offer_only (modMgmt s fun m => { m with reports := m.reports ++ [t] }) s.mgmt.reportCircuit
  unfold OnlyCircuit at only
  rw [pushReport, only]
  rfl

/-- The part once the message has been dropped. -/
structure CutAndDropped (s : State) (l : LineNo) (sh : Shift) (cut : Text) (w : State) : Prop where
  lines : w.lines = (shifted (unheld s l) l sh).lines
  mgmt : w.mgmt = { s.mgmt.released with reports := s.mgmt.reports ++ [cut] }
  placed : ReportPlaced cut s { w with lines := s.lines, mgmt := { s.mgmt with reports := s.mgmt.reports ++ [cut] } }
  meanwhile : w.meanwhile = s.meanwhile
  resetLow : w.resetLow = s.resetLow
  banks : w.banks = s.banks

theorem pushReport_cutAndDropped (s : State) (l : LineNo) (sh : Shift) (cut : Text) :
    CutAndDropped s l sh cut (releaseBuffer (pushReport (shifted (unheld s l) l sh) cut)) := by
  let w := shifted (unheld s l) l sh
  have only : OnlyCircuit s.mgmt.reportCircuit (modMgmt w fun m => { m with reports := m.reports ++ [cut] })
    (pushReport w cut) := offer_only _ _
  have mgmt : (pushReport w cut).mgmt = { s.mgmt with reports := s.mgmt.reports ++ [cut] } := pushReport_mgmt w cut
  have placed := pushReport_placed s w.lines cut
  have eq : { releaseBuffer (pushReport w cut) with
      lines := s.lines, mgmt := { s.mgmt with reports := s.mgmt.reports ++ [cut] } } =
      { pushReport w cut with lines := s.lines } := by
    rw [← mgmt]
    rfl
  exact
    { lines := pushReport_lines w cut
      mgmt := congrArg Mgmt.released mgmt
      placed := eq ▸ placed
      meanwhile := pushReport_meanwhile w cut
      resetLow := only.delivery.tables.resetLow
      banks := only.delivery.tables.banks }

theorem manageBody_drops (body : s.lines[l].framer.state = .manageBody) (holder : s.mgmt.holder = some b)
    (room : s.mgmt.reports.length < 8) :
    CutAndDropped s l sh (shortReplyText s.mgmt.tag b "CUT") (endMessageCut (shifted (unheld s l) l sh) l) := by
  rw [endMessageCut_manageBody body holder room]
  exact pushReport_cutAndDropped s l sh _

/-- R31: a copy message begins. -/
theorem CutAndDropped.opens_copy {w : State} {cut : Text} (dropped : CutAndDropped s l sh cut w)
    (service : lineInService s.lines[l] = true) :
    ∃ u, rested (takeOpening w l .copy) l = u ∧
      u.lines = modAt s.lines l (afterCharacter sh (Framer.inHeader .copy)
        { s.lines[l].counters with messagesTaken := min (s.lines[l].counters.messagesTaken + 1) 65535 }) ∧
      u.mgmt = { s.mgmt.released with reports := s.mgmt.reports ++ [cut] } ∧
      ReportPlaced cut s { u with lines := s.lines, mgmt := { s.mgmt with reports := s.mgmt.reports ++ [cut] } } := by
  rw [takeOpening_copy]
  exact ⟨_, rfl, rested_opened .copy service dropped.lines, dropped.mgmt, dropped.placed⟩

/-- R31, R159: with nothing coming between, the framer holds the buffer again. -/
theorem CutAndDropped.opens_management {w : State} {cut : Text} (dropped : CutAndDropped s l sh cut w)
    (service : lineInService s.lines[l] = true) :
    ∃ u, rested (takeOpening w l .management) l = u ∧
      u.lines = modAt s.lines l (afterCharacter sh (Framer.inHeader .management)
        { s.lines[l].counters with messagesTaken := min (s.lines[l].counters.messagesTaken + 1) 65535 }) ∧
      u.mgmt = { s.mgmt.released with
        buffer := .opened, holder := some l, reports := s.mgmt.reports ++ [cut] } ∧
      ReportPlaced cut s { u with lines := s.lines, mgmt := { s.mgmt with reports := s.mgmt.reports ++ [cut] } } := by
  have free : w.mgmt.buffer = .free := congrArg Mgmt.buffer dropped.mgmt
  rw [takeOpening_granted free]
  refine ⟨_, rfl, rested_opened .management service dropped.lines, ?_, dropped.placed⟩
  exact congrArg (fun m : Mgmt => { m.released with buffer := .opened, holder := some l }) dropped.mgmt

/-- R18: an opening mark between messages, whatever may come between. -/
theorem goodCharacter_hunt_management {between : State → State} {s : State} {l : LineNo} {code : LineCode} {sh : Shift}
    (converts : convertIn s.banks[s.lines[l].desc.bank] s.lines[l].desc.width s.lines[l].shift code = (some (ch 'M'), sh))
    (hunt : s.lines[l].framer.state = .hunt) (full : s.lines[l].framer.held = 2) :
    goodCharacter between s l code = rested (takeOpening (shifted s l sh) l .management) l := by
  have other : ch 'M' ≠ houseSlash := by decide
  have noCopy : ch 'M' ≠ ch 'C' := by decide
  have state : (shifted s l sh).lines[l].framer.state = .hunt := by rw [shifted_framer]; exact hunt
  have held : (shifted s l sh).lines[l].framer.held = 2 := by rw [shifted_framer]; exact full
  rw [goodCharacter_eq converts]
  simp only [framerChar, state, huntChar, if_neg other, held, true_and, if_true, if_neg noCopy]

/-- What a code converts to is told by the banks and the line. -/
theorem converts_congr {s u : State} {m : LineNo} (x : BitVec 7) (banks : u.banks = s.banks)
    (line : u.lines[m] = s.lines[m]) :
    convertIn u.banks[u.lines[m].desc.bank] u.lines[m].desc.width u.lines[m].shift (lineCode u.lines[m].desc.width x) =
      convertIn s.banks[s.lines[m].desc.bank] s.lines[m].desc.width s.lines[m].shift
        (lineCode s.lines[m].desc.width x) := by
  simp only [banks, line]

/-- R31, R159: the free buffer is granted to another line, whose opening mark comes between. -/
theorem CutAndDropped.grants_another {w : State} {cut : Text} {m : LineNo} {x : BitVec 7} {sh' : Shift}
    (dropped : CutAndDropped s l sh cut w) (other : m ≠ l) (between : s.meanwhile = [[.characterArrives m x true]])
    (arrived : arrives s m x (some (ch 'M')) sh') (hunt : s.lines[m].framer.state = .hunt)
    (full : s.lines[m].framer.held = 2) :
    betweenDropAndRequest l w = { withLine w m sh' (Framer.inHeader .management)
        { s.lines[m].counters with messagesTaken := min (s.lines[m].counters.messagesTaken + 1) 65535 } with
      meanwhile := []
      mgmt := { s.mgmt.released with
        buffer := .opened, holder := some m, reports := s.mgmt.reports ++ [cut] } } := by
  have service := inService_of_arrives arrived
  obtain ⟨-, can, converts⟩ := arrived
  let w' : State := { w with meanwhile := [] }
  have line : w'.lines[m] = s.lines[m] := by
    have unheldLine : (unheld s l).lines[m] = s.lines[m] := modAt_other _ _ other
    show w.lines[m] = s.lines[m]
    rw [dropped.lines, shifted_other sh other, unheldLine]
  have free : w'.mgmt.buffer = .free := congrArg Mgmt.buffer dropped.mgmt
  have gap : betweenDropAndRequest l w = openedByAnother l w' (.characterArrives m x true) := by
    simp only [betweenDropAndRequest, inGap, dropped.meanwhile, between]
    rfl
  have converts' : convertIn w'.banks[w'.lines[m].desc.bank] w'.lines[m].desc.width w'.lines[m].shift
      (lineCode w'.lines[m].desc.width x) = (some (ch 'M'), sh') :=
    (converts_congr (u := w') x dropped.banks line).trans converts
  have opened : goodCharacter id w' m (lineCode w'.lines[m].desc.width x) =
      { withLine w' m sh' (Framer.inHeader .management)
          { s.lines[m].counters with messagesTaken := min (s.lines[m].counters.messagesTaken + 1) 65535 } with
        mgmt := { s.mgmt.released with
          buffer := .opened, holder := some m, reports := s.mgmt.reports ++ [cut] } } := by
    have mgmt : w'.mgmt = { s.mgmt.released with reports := s.mgmt.reports ++ [cut] } := dropped.mgmt
    rw [goodCharacter_hunt_management converts' (by rw [line]; exact hunt) (by rw [line]; exact full),
      rested_takeOpening_granted (by rw [line]; exact service) free, line, mgmt]
    rfl
  have grants : m ≠ l ∧ canArrive w'.lines[m] = true ∧ w'.mgmt.buffer = .free ∧
      (goodCharacter id w' m (lineCode w'.lines[m].desc.width x)).mgmt.holder = some m :=
    ⟨other, by rw [line]; exact can, free, by rw [opened]⟩
  rw [gap]
  exact (if_pos grants).trans opened

/-- R160: the line whose message has been refused. -/
theorem turnedAway_discards (g : State) (l : LineNo) (report : Text) (start : Bool) :
    (toDiscard (pushReport (turnedAway g l) report) l start).lines[l] =
      { g.lines[l] with
        counters :=
          { g.lines[l].counters with
            messagesTaken := count g.lines[l].counters.messagesTaken, refused := count g.lines[l].counters.refused }
        framer :=
          { g.lines[l].framer with
            state := .discard, header := [], takeRef := none, held := 0, lineStart := start } } := by
  have reported : (pushReport (turnedAway g l) report).lines[l] = (turnedAway g l).lines[l] := by rw [pushReport_lines]
  rw [toDiscard, modFramer, modLine_line, reported, turnedAway_line]

/-- R160: the message of the line that asks too late is refused and passed over. -/
theorem CutAndDropped.refused_after {w : State} {cut : Text} {m : LineNo} {x : BitVec 7} {sh' : Shift}
    (dropped : CutAndDropped s l sh cut w) (service : lineInService s.lines[l] = true) (other : m ≠ l)
    (between : s.meanwhile = [[.characterArrives m x true]])
    (arrived : arrives s m x (some (ch 'M')) sh') (hunt : s.lines[m].framer.state = .hunt)
    (full : s.lines[m].framer.held = 2) (room : s.mgmt.reports.length < 7) :
    ∃ u, rested (takeOpening (betweenDropAndRequest l w) l .management) l = u ∧ u.meanwhile = [] ∧
      u.mgmt = { s.mgmt.released with
        buffer := .opened
        holder := some m
        reports := s.mgmt.reports ++ [cut, shortReplyText none l "BUSY"] } ∧
      u.lines[m] = afterCharacter sh' (Framer.inHeader .management)
        { s.lines[m].counters with messagesTaken := min (s.lines[m].counters.messagesTaken + 1) 65535 } s.lines[m] ∧
      u.lines[l] = afterCharacter sh
        { s.lines[l].framer with state := .discard, held := 0, lineStart := true, header := [], takeRef := none }
        { s.lines[l].counters with
          messagesTaken := min (s.lines[l].counters.messagesTaken + 1) 65535
          refused := min (s.lines[l].counters.refused + 1) 65535 } s.lines[l] ∧
      ∀ i : LineNo, i ≠ l → i ≠ m → u.lines[i] = s.lines[i] := by
  let g := betweenDropAndRequest l w
  let busy := shortReplyText none l "BUSY"
  have granted : g = _ := dropped.grants_another other between arrived hunt full
  have lines : g.lines = modAt w.lines m (afterCharacter sh' (Framer.inHeader .management)
      { s.lines[m].counters with messagesTaken := min (s.lines[m].counters.messagesTaken + 1) 65535 }) :=
    congrArg State.lines granted
  have mgmt : g.mgmt = { s.mgmt.released with
      buffer := .opened, holder := some m, reports := s.mgmt.reports ++ [cut] } := congrArg State.mgmt granted
  have held : g.mgmt.buffer ≠ .free := by rw [mgmt]; exact BufferState.noConfusion
  have room' : (turnedAway g l).mgmt.reports.length < 8 := by
    show g.mgmt.reports.length < 8
    rw [mgmt, List.length_append]
    exact Nat.add_lt_add_right room 1
  have refused : takeOpening g l .management = toDiscard (pushReport (turnedAway g l) busy) l true := by
    rw [takeOpening_refused held, shortReply_eq, placeReply_room _ room']
  have outside (i : LineNo) (h : i ≠ l) : w.lines[i] = s.lines[i] := by
    have unheldLine : (unheld s l).lines[i] = s.lines[i] := modAt_other _ _ h
    rw [dropped.lines, shifted_other sh h, unheldLine]
  have only : LineOnly l g (rested (takeOpening g l .management) l) :=
    (rested_only _ l).after (takeOpening_only g l .management)
  have own : g.lines[l] = { (unheld s l).lines[l] with shift := sh } := by
    rw [lines, modAt_other _ _ (Ne.symm other), dropped.lines, shifted_line]
  refine ⟨_, rfl, ?_, ?_, ?_, ?_, fun i notL notM => ?_⟩
  · rw [refused]
    exact (pushReport_meanwhile _ _).trans (congrArg State.meanwhile granted)
  · have reported : (pushReport (turnedAway g l) busy).mgmt = { g.mgmt with reports := g.mgmt.reports ++ [busy] } :=
      pushReport_mgmt _ _
    rw [refused]
    refine Eq.trans reported ?_
    rw [mgmt, List.append_assoc]
    rfl
  · rw [only.others m other, lines, modAt_same, outside m other]
  · refine rested_line service ?_
    rw [refused, turnedAway_discards, own, unheld_line]
    rfl
  · rw [only.others i notL, lines, modAt_other _ _ notM, outside i notL]

end Manage

end Opening

/-- Settles O15: the opening marks in each body, by what has ended when the new message is taken. -/
theorem openingMarksInBodiesEndMessages : Obligations.OpeningMarksInBodiesEndMessages := by
  unfold Obligations.OpeningMarksInBodiesEndMessages
  rintro s l v h sh arrived full k rfl
  have service := inService_of_arrives arrived
  refine ⟨fun discard => ⟨?_, ?_⟩, ?_, ?_⟩
  · rintro rfl
    exact discard_opens_copy arrived discard full
  · rintro rfl free
    exact discard_opens_management arrived discard full free
  · rintro n t x body rfl takeRef take first
    exact copyBody_opens_copy arrived body full takeRef take first
  · rintro b body holder room cut rfl
    have dropped := manageBody_drops (sh := sh) body holder room
    refine ⟨?_, ?_, ?_⟩
    · rintro rfl
      obtain ⟨u, eq, opened⟩ := dropped.opens_copy service
      refine ⟨u, ?_, opened⟩
      rw [exec_bodyOpening_copy arrived (Or.inr (Or.inl body)) full, eq]
    · rintro rfl nothing
      obtain ⟨u, eq, opened⟩ := dropped.opens_management service
      refine ⟨u, ?_, opened⟩
      rw [exec_bodyOpening_management arrived (Or.inr (Or.inl body)) full, if_pos body, betweenDropAndRequest,
        inGap_none _ _ (dropped.meanwhile.trans nothing), eq]
    · rintro m w sh' rfl other between arrived' hunt full' room' j rfl
      obtain ⟨u, eq, refused⟩ := dropped.refused_after service other between arrived' hunt full' room'
      refine ⟨u, ?_, refused⟩
      rw [exec_bodyOpening_management arrived (Or.inr (Or.inl body)) full, if_pos body, eq]

end Sys2Proof.Machine
/-! ## A substitute opened and written (O16) -/

namespace Sys2Proof.Machine

open Sys2Proof

theorem modSlot_modSlot (s : State) (n : SlotNo) (f g : Slot → Slot) :
    modSlot (modSlot s n f) n g = modSlot s n fun x => g (f x) := by
  simp only [modSlot, modAt_modAt]

/-- Updates that agree on the slot as it stands are one update. -/
theorem modSlot_congr {s : State} {n : SlotNo} {f g : Slot → Slot} (h : f s.slots[n] = g s.slots[n]) :
    modSlot s n f = modSlot s n g := by
  simp only [modSlot, modAt, h]

theorem put_put {α : Type} {n : Nat} (v : Vector α n) (i : Fin n) (x y : α) : put (put v i x) i y = put v i y := by
  simp [put]

theorem modAt_eq_put {α : Type} {n : Nat} {v : Vector α n} {i : Fin n} {f : α → α} {x : α} (h : f v[i] = x) :
    modAt v i f = put v i x := congrArg (put v i) h

theorem put_id {α : Type} {n : Nat} {v : Vector α n} {i : Fin n} {x : α} (h : v[i] = x) : put v i x = v :=
  modAt_id v i (fun _ => x) h.symm

/-! ### The header (R66, R68) -/

section Header

variable {s : State} {l : LineNo} {sh : Shift} {d : CopyHeader} {n : SlotNo} {k : Take}

/-- R68: a substitute is opened over a stored take. -/
theorem handOver_substitute (found : lookup s d.key = some n) (inOrder : takeOrderFault s.slots[n] d = false)
    (take : takeAt s n d.take = some k) (sub : d.sub = true) (stored : storedTake k = true) :
    handOver s l d = (modSlot s n (openSubstitute l d), .opened n d.take) := by
  simp only [handOver, found, inOrder, Bool.false_eq_true, if_false, take, sub, stored, Bool.and_self, if_true]

/-- R66, R68: the slot, a substitute opened in it over the take that stands as `k`. -/
def substituteOpened (l : LineNo) (d : CopyHeader) (k : Take) (x : Slot) : Slot :=
  { x with
    lastTake := if d.last then some d.take else x.lastTake
    takes := put x.takes d.take (some (openedOver l d k)) }

theorem openSubstitute_over {x : Slot} (take : x.takes[d.take] = some k) :
    openSubstitute l d x = substituteOpened l d k x := by
  have takes : modAt x.takes d.take (Option.map (openedOver l d)) = put x.takes d.take (some (openedOver l d k)) :=
    modAt_eq_put (by rw [take]; rfl)
  have opened : openSubstitute l d x = withLast { x with takes := modAt x.takes d.take (Option.map (openedOver l d)) } d := rfl
  rw [opened, takes, withLast, substituteOpened]
  split <;> rfl

theorem rested_opensSubstitute (service : lineInService s.lines[l] = true) (kind : s.lines[l].framer.kind = .copy)
    (reads : readCopyHeader s.lines[l].desc.agency s.lines[l].framer.header = some d) (sub : d.sub = true)
    (found : lookup s d.key = some n) (inOrder : takeOrderFault s.slots[n] d = false)
    (take : takeAt s n d.take = some k) (stored : storedTake k = true) :
    rested (headerEnds (shifted s l sh) l) l = { withLine s l sh
        { s.lines[l].framer with state := .copyBody, held := 0, lineStart := true, takeRef := some (n, d.take) }
        s.lines[l].counters with
      slots := modAt s.slots n (substituteOpened l d k) } := by
  have reads' : readCopyHeader (shifted s l sh).lines[l].desc.agency s.lines[l].framer.header = some d := by
    rw [shifted_line]
    exact reads
  have handed := handOver_substitute (s := shifted s l sh) (l := l) found inOrder take sub stored
  have opened : headerEnds (shifted s l sh) l =
      modFramer (modSlot (shifted s l sh) n (openSubstitute l d)) l fun f =>
        { f with state := .copyBody, held := 0, lineStart := true, takeRef := some (n, d.take) } := by
    simp only [headerEnds, shifted_framer, kind, reads', handCopyHeader, handed]
  have slot : modSlot (shifted s l sh) n (openSubstitute l d) = modSlot (shifted s l sh) n (substituteOpened l d k) :=
    modSlot_congr (openSubstitute_over take)
  rw [opened, slot]
  exact congrArg (fun u : State => { u with slots := modAt s.slots n (substituteOpened l d k) })
    (rested_modFramer (sh := sh) (g := fun f =>
      { f with state := .copyBody, held := 0, lineStart := true, takeRef := some (n, d.take) }) service)

end Header

/-! ### Text written (R69) -/

/-- The characters of `z` handed over for a take, one after the other. -/
def writeText (s : State) (n : SlotNo) (t : TakeNo) (z : Text) : State := z.foldl (fun u h => writeChar u n t h) s

theorem writeText_cons (s : State) (n : SlotNo) (t : TakeNo) (h : House) (z : Text) :
    writeText s n t (h :: z) = writeText (writeChar s n t h) n t z := rfl

theorem writeText_append (s : State) (n : SlotNo) (t : TakeNo) (y z : Text) :
    writeText s n t (y ++ z) = writeText (writeText s n t y) n t z := List.foldl_append

/-- R27: what is passed on in COPY-BODY is written. -/
theorem passed_copyBody {l : LineNo} {n : SlotNo} {t : TakeNo} (h : House) (j : Nat) {s : State}
    (body : s.lines[l].framer.state = .copyBody) (takeRef : s.lines[l].framer.takeRef = some (n, t)) :
    passOn (passSlashes s l j) l h = writeText s n t (List.replicate j houseSlash ++ [h]) := by
  induction j generalizing s with
  | zero => exact passOn_copyBody body takeRef h
  | succ j ih =>
    have lines := (passOn_same s l houseSlash).lines
    have rest := ih (s := passOn s l houseSlash) (by rw [lines]; exact body) (by rw [lines]; exact takeRef)
    rw [List.replicate_succ, List.cons_append, writeText_cons, ← passOn_copyBody body takeRef]
    exact rest

/-- The slot with take `t` standing as `k`. -/
def withTake (t : TakeNo) (k : Take) (x : Slot) : Slot := { x with takes := put x.takes t (some k) }

/-- The slot with take `t` standing as `k` and the block `b` in use. -/
def withBlock (t : TakeNo) (k : Take) (b : BlockNo) (x : Slot) : Slot :=
  { x with takes := put x.takes t (some k), blockMap := put x.blockMap b true }

theorem withTake_withTake (t : TakeNo) (k k' : Take) (x : Slot) : withTake t k' (withTake t k x) = withTake t k' x := by
  simp only [withTake, put_put]

theorem withBlock_withTake (t : TakeNo) (k k' : Take) (b : BlockNo) (x : Slot) :
    withBlock t k' b (withTake t k x) = withBlock t k' b x := by
  simp only [withTake, withBlock, put_put]

theorem withTake_withBlock (t : TakeNo) (k k' : Take) (b : BlockNo) (x : Slot) :
    withTake t k' (withBlock t k b x) = withBlock t k' b x := by
  simp only [withTake, withBlock, put_put]

/-- The take with `z` after the characters of the version being filled. -/
def Take.extended (k : Take) (z : Text) : Take :=
  withFilling k { fillingVersion k with text := (fillingVersion k).text ++ z }

/-- The take with `z` after the characters of the version being filled, of which `b` has become the last block. -/
def Take.extendedInto (k : Take) (b : BlockNo) (z : Text) : Take :=
  withFilling k
    { fillingVersion k with blocks := (fillingVersion k).blocks ++ [b], text := (fillingVersion k).text ++ z }

theorem withFilling_withFilling (k : Take) (v w : Version) : withFilling (withFilling k v) w = withFilling k w := by
  cases sub : k.replacement <;> simp [withFilling, sub]

theorem Take.extended_nil (k : Take) : k.extended [] = k := by
  rw [Take.extended, List.append_nil]
  exact withFilling_fillingVersion k

theorem Take.extended_state (k : Take) (z : Text) : (k.extended z).state = k.state := withFilling_state k _

theorem Take.extendedInto_state (k : Take) (b : BlockNo) (z : Text) : (k.extendedInto b z).state = k.state :=
  withFilling_state k _

theorem Take.extended_text (k : Take) (z : Text) :
    (fillingVersion (k.extended z)).text = (fillingVersion k).text ++ z := by
  rw [Take.extended, fillingVersion_withFilling]

theorem Take.extendedInto_text (k : Take) (b : BlockNo) (z : Text) :
    (fillingVersion (k.extendedInto b z)).text = (fillingVersion k).text ++ z := by
  rw [Take.extendedInto, fillingVersion_withFilling]

theorem Take.extended_extended (k : Take) (y z : Text) : (k.extended y).extended z = k.extended (y ++ z) := by
  simp only [Take.extended, withFilling_withFilling, fillingVersion_withFilling, List.append_assoc]

theorem Take.extendedInto_extended (k : Take) (b : BlockNo) (y z : Text) :
    (k.extendedInto b y).extended z = k.extendedInto b (y ++ z) := by
  simp only [Take.extended, Take.extendedInto, withFilling_withFilling, fillingVersion_withFilling, List.append_assoc]

theorem Take.extended_extendedInto (k : Take) (b : BlockNo) (y z : Text) :
    (k.extended y).extendedInto b z = k.extendedInto b (y ++ z) := by
  simp only [Take.extended, Take.extendedInto, withFilling_withFilling, fillingVersion_withFilling, List.append_assoc]

section Write

variable {s : State} {n : SlotNo} {t : TakeNo} {k : Take}

theorem modTake_eq {f : Take → Take} (take : takeAt s n t = some k) : modTake s n t f = modSlot s n (withTake t (f k)) := by
  refine modSlot_congr (congrArg (fun takes => { s.slots[n] with takes := takes }) (modAt_eq_put ?_))
  have present : s.slots[n].takes[t] = some k := take
  rw [present]
  rfl

theorem writeChar_extends (take : takeAt s n t = some k) (filling : k.state = .filling)
    (used : 0 < (fillingVersion k).text.length % 64) (h : House) :
    writeChar s n t h = modSlot s n (withTake t (k.extended [h])) := by
  have room : ¬ (fillingVersion k).length % Config.blockSize = 0 := Nat.ne_of_gt used
  simp only [writeChar, take, if_pos filling, if_neg room]
  exact modTake_eq take

theorem writeChar_begins (take : takeAt s n t = some k) (filling : k.state = .filling)
    (full : (fillingVersion k).text.length % 64 = 0) {b : BlockNo} (free : lowestFree s.slots[n].blockMap = some b)
    (h : House) : writeChar s n t h = modSlot s n (withBlock t (k.extendedInto b [h]) b) := by
  have full' : (fillingVersion k).length % Config.blockSize = 0 := full
  simp only [writeChar, take, if_pos filling, if_pos full', free]
  rfl

theorem modSlot_withTake_self (take : takeAt s n t = some k) : modSlot s n (withTake t k) = s := by
  have self : withTake t k s.slots[n] = s.slots[n] :=
    congrArg (fun takes => { s.slots[n] with takes := takes }) (put_id (v := s.slots[n].takes) take)
  rw [modSlot, modAt_id _ _ _ self]

theorem takeAt_withTake (s : State) (n : SlotNo) (t : TakeNo) (k : Take) :
    takeAt (modSlot s n (withTake t k)) n t = some k := by
  rw [takeAt_modSlot]
  exact put_same _ t _

theorem takeAt_withBlock (s : State) (n : SlotNo) (t : TakeNo) (k : Take) (b : BlockNo) :
    takeAt (modSlot s n (withBlock t k b)) n t = some k := by
  rw [takeAt_modSlot]
  exact put_same _ t _

/-- R69: text for which the last block has room needs no block. -/
theorem writeText_extends (z : Text) {s : State} {k : Take} (take : takeAt s n t = some k) (filling : k.state = .filling)
    (room : z = [] ∨ 0 < (fillingVersion k).text.length % 64 ∧ (fillingVersion k).text.length % 64 + z.length ≤ 64) :
    writeText s n t z = modSlot s n (withTake t (k.extended z)) := by
  induction z generalizing s k with
  | nil => rw [Take.extended_nil, modSlot_withTake_self take]; rfl
  | cons h z ih =>
    obtain empty | ⟨used, room⟩ := room
    · cases empty
    · have text := Take.extended_text k [h]
      have rest : z = [] ∨ 0 < (fillingVersion (k.extended [h])).text.length % 64 ∧
          (fillingVersion (k.extended [h])).text.length % 64 + z.length ≤ 64 := by
        rw [text, List.length_append, List.length_singleton]
        rw [List.length_cons] at room
        cases z with
        | nil => exact Or.inl rfl
        | cons g z => rw [List.length_cons] at room ⊢; omega
      rw [writeText_cons, writeChar_extends take filling used,
        ih (takeAt_withTake s n t _) ((Take.extended_state k _).trans filling) rest, modSlot_modSlot]
      refine modSlot_congr ?_
      rw [withTake_withTake, Take.extended_extended]
      rfl

/-- R69: text that begins a block, at once or on its way, needs that block alone. -/
theorem writeText_begins (z : Text) {s : State} {k : Take} {b : BlockNo} (take : takeAt s n t = some k)
    (filling : k.state = .filling) (short : z.length ≤ 64) (nonempty : z ≠ [])
    (begins : (fillingVersion k).text.length % 64 = 0 ∨ 64 < (fillingVersion k).text.length % 64 + z.length)
    (free : lowestFree s.slots[n].blockMap = some b) :
    writeText s n t z = modSlot s n (withBlock t (k.extendedInto b z) b) := by
  induction z generalizing s k with
  | nil => exact absurd rfl nonempty
  | cons h z ih =>
    rw [List.length_cons] at short begins
    by_cases full : (fillingVersion k).text.length % 64 = 0
    · have text := Take.extendedInto_text k b [h]
      have rest : z = [] ∨ 0 < (fillingVersion (k.extendedInto b [h])).text.length % 64 ∧
          (fillingVersion (k.extendedInto b [h])).text.length % 64 + z.length ≤ 64 := by
        rw [text, List.length_append, List.length_singleton]
        omega
      rw [writeText_cons, writeChar_begins take filling full free,
        writeText_extends z (takeAt_withBlock s n t _ b) ((Take.extendedInto_state k b _).trans filling) rest,
        modSlot_modSlot]
      refine modSlot_congr ?_
      rw [withTake_withBlock, Take.extendedInto_extended]
      rfl
    · have text := Take.extended_text k [h]
      have more : (fillingVersion (k.extended [h])).text.length % 64 = 0 ∨
          64 < (fillingVersion (k.extended [h])).text.length % 64 + z.length := by
        rw [text, List.length_append, List.length_singleton]
        omega
      have left : z ≠ [] := by
        rintro rfl
        rw [List.length_nil] at begins
        omega
      have free' : lowestFree (modSlot s n (withTake t (k.extended [h]))).slots[n].blockMap = some b := by
        rw [modSlot_slots, modAt_same]
        exact free
      rw [writeText_cons, writeChar_extends take filling (Nat.pos_of_ne_zero full),
        ih (takeAt_withTake s n t _) ((Take.extended_state k _).trans filling) (by omega) left more free', modSlot_modSlot]
      refine modSlot_congr ?_
      rw [withBlock_withTake, Take.extended_extendedInto]
      rfl

end Write

/-! ### Text in COPY-BODY (R26, R27, R69) -/

/-- R27: text in COPY-BODY, with the slashes held before it, is written to the take. -/
theorem exec_copyBody_text {s : State} {l : LineNo} {v : BitVec 7} {h : House} {sh : Shift} {n : SlotNo} {t : TakeNo}
    (arrived : arrives s l v (some h) sh) (body : s.lines[l].framer.state = .copyBody)
    (takeRef : s.lines[l].framer.takeRef = some (n, t)) (text : IsText s.lines[l].framer h) {f : Slot → Slot}
    (written : ∀ u : State, u.slots = s.slots → writeText u n t (passedText s.lines[l].framer h) = modSlot u n f) :
    exec (.characterArrives l v true) s = .next (atOnce
      { withLine s l sh (afterText s.lines[l].framer h) s.lines[l].counters with slots := modAt s.slots n f }) := by
  have body' : (shifted s l sh).lines[l].framer.state = .copyBody := by rw [shifted_framer]; exact body
  have takeRef' : (shifted s l sh).lines[l].framer.takeRef = some (n, t) := by rw [shifted_framer]; exact takeRef
  have text' : IsText (shifted s l sh).lines[l].framer h := by rw [shifted_framer]; exact text
  have passed : passOn (passSlashes (shifted s l sh) l s.lines[l].framer.held.val) l h = modSlot (shifted s l sh) n f :=
    (passed_copyBody h _ body' takeRef').trans (written (shifted s l sh) rfl)
  rw [exec_bodyChar arrived (Or.inl body), bodyChar_text text', shifted_framer, passed]
  exact congrArg (fun u : State => Host.Outcome.next (atOnce { u with slots := modAt s.slots n f }))
    (rested_modFramer (g := fun _ => afterText s.lines[l].framer h) (inService_of_arrives arrived))

end Sys2Proof.Machine
/-! ## What a substitute does to the records of its take (O16)

R78 to R80 on every circuit at once, and on the slot. -/

namespace Sys2Proof.Machine

open Sys2Proof

/-! ### Circuits changed one after the other -/

/-- Each circuit of a list changed by `f`. -/
theorem foldl_modAt_get {α : Type} {n : Nat} (f : α → α) (cs : List (Fin n)) (nodup : cs.Nodup) (v : Vector α n)
    (i : Fin n) : (cs.foldl (fun u c => modAt u c f) v)[i] = if i ∈ cs then f v[i] else v[i] := by
  induction cs generalizing v with
  | nil => simp
  | cons c cs ih =>
    obtain ⟨fresh, rest⟩ := List.nodup_cons.mp nodup
    rw [List.foldl_cons, ih rest, modAt_get]
    by_cases here : i = c
    · subst here
      rw [if_neg fresh, if_pos rfl, if_pos List.mem_cons_self]
    · rw [if_neg here]
      simp only [List.mem_cons, here, false_or]

theorem foldl_modAt_all {α : Type} {n : Nat} (f : α → α) (v : Vector α n) :
    (List.finRange n).foldl (fun u c => modAt u c f) v = mapAll v f := by
  refine array_ext fun i => ?_
  rw [foldl_modAt_get f _ (List.nodup_finRange n), if_pos (List.mem_finRange i), mapAll_get]

/-- Updates that agree on the sender as it stands are one update. -/
theorem modSender_congr {s : State} {c : CircuitNo} {f g : Sender → Sender}
    (h : f s.circuits[c].sender = g s.circuits[c].sender) : modSender s c f = modSender s c g := by
  simp only [modSender, modCircuit, modAt, h]

theorem modCircuit_congr {s : State} {c : CircuitNo} {f g : Circuit → Circuit} (h : f s.circuits[c] = g s.circuits[c]) :
    modCircuit s c f = modCircuit s c g := by
  simp only [modCircuit, modAt, h]

theorem modCircuit_modCircuit (s : State) (c : CircuitNo) (f g : Circuit → Circuit) :
    modCircuit (modCircuit s c f) c g = modCircuit s c fun x => g (f x) := by
  simp only [modCircuit, modAt_modAt]

/-! ### Records pulled (R63, R79) -/

/-- R63: a carried record that satisfies `p` is detached, and the sender told to cut. -/
def Sender.detached (p : Rec → Bool) (line : CutLine) (x : Sender) : Sender :=
  match x.carried with
  | .record r => if p r then { x with carried := .record { r with ref := none }, cutTold := some line } else x
  | _ => x

/-- R63 on one circuit: the records that satisfy `p` have left it, and a carried one is detached. -/
def Circuit.pulled (p : Rec → Bool) (line : CutLine) (x : Circuit) : Circuit :=
  { x with
    queue := x.queue.filter fun r => !p r
    sender := { x.sender.detached p line with chain := x.sender.chain.filter fun r => !p r } }

/-- R124: the return of a record is told by the pool and by the slot it names. -/
theorem returnRecord_modSlot {s : State} {r : Rec} {f : RecRef} (ref : r.ref = some f) :
    returnRecord s r = modSlot { s with freeCount := s.freeCount + 1 } f.slot fun x => unname x f := by
  simp only [returnRecord, unnameIn, ref]

/-- R62, R63: `j` records that name what `f` names have left the slot. -/
def unnamed (f : RecRef) (j : Nat) (x : Slot) : Slot := (fun y => unname y f)^[j] x

theorem unnamed_unnamed (f : RecRef) (i j : Nat) (x : Slot) : unnamed f i (unnamed f j x) = unnamed f (i + j) x :=
  (Function.iterate_add_apply _ i j x).symm

/-- The pool and one slot, `j` records having been returned that named it by `f`. -/
def returned (s : State) (f : RecRef) (i j : Nat) : State :=
  modSlot { s with freeCount := s.freeCount + i } f.slot (unnamed f j)

theorem returned_returned (s : State) (f : RecRef) (i i' j j' : Nat) :
    returned (returned s f i j) f i' j' = returned s f (i + i') (j' + j) := by
  simp only [returned, modSlot, modAt_modAt, unnamed_unnamed, Nat.add_assoc]

theorem returned_none (s : State) (f : RecRef) : returned s f 0 0 = s := by
  have same : modAt s.slots f.slot (unnamed f 0) = s.slots := modAt_id _ _ _ rfl
  rw [returned, modSlot, same]
  rfl

theorem returnRecords_all {f : RecRef} (rs : List Rec) (all : ∀ r ∈ rs, r.ref = some f) (s : State) :
    returnRecords s rs = returned s f rs.length rs.length := by
  induction rs generalizing s with
  | nil => exact (returned_none s f).symm
  | cons r rs ih =>
    have first : returnRecord s r = returned s f 1 1 := returnRecord_modSlot (all r List.mem_cons_self)
    have rest : returnRecords s (r :: rs) = returnRecords (returnRecord s r) rs := rfl
    rw [rest, ih (fun x h => all x (List.mem_cons_of_mem r h)), first, returned_returned, List.length_cons, Nat.add_comm 1]

section Pull

variable {f : RecRef} {line : CutLine}

/-- The records that read what `f` names. -/
def namedBy (f : RecRef) (r : Rec) : Bool := r.ref = some f

theorem detachCarried_pulled (s : State) (c : CircuitNo) :
    detachCarried (namedBy f) line s c =
      modSender (returned s f 0 (carriedCount (namedBy f) s.circuits[c].sender)) c (Sender.detached (namedBy f) line) := by
  have same (e : (s.circuits[c].sender).detached (namedBy f) line = s.circuits[c].sender) :
      modSender s c (Sender.detached (namedBy f) line) = s := by
    have id : modAt s.circuits c (fun x => { x with sender := x.sender.detached (namedBy f) line }) = s.circuits :=
      modAt_id _ _ _ (congrArg (fun y => { s.circuits[c] with sender := y }) e)
    simp only [modSender, modCircuit, id]
  cases carried : s.circuits[c].sender.carried with
  | nothing =>
    simp only [detachCarried, carriedCount, carried, returned_none]
    exact (same (by simp only [Sender.detached, carried])).symm
  | report =>
    simp only [detachCarried, carriedCount, carried, returned_none]
    exact (same (by simp only [Sender.detached, carried])).symm
  | record r =>
    cases reads : namedBy f r with
    | false =>
      simp only [detachCarried, carriedCount, carried, reads, Bool.false_eq_true, if_false, returned_none]
      exact (same (by simp only [Sender.detached, carried, reads, Bool.false_eq_true, if_false])).symm
    | true =>
      have ref : r.ref = some f := of_decide_eq_true reads
      simp only [detachCarried, carriedCount, carried, reads, if_true, ref, unnameIn]
      have detach : modSender s c (Sender.detached (namedBy f) line) =
          modSender s c fun x => { x with carried := .record { r with ref := none }, cutTold := some line } := by
        refine modSender_congr ?_
        simp only [Sender.detached, carried, reads, if_true]
      rw [← detach]
      rfl

theorem Sender.detached_chain (p : Rec → Bool) (x : Sender) (chain : List Rec) :
    ({ x with chain := chain } : Sender).detached p line = { x.detached p line with chain := chain } := by
  cases carried : x.carried with
  | nothing => simp only [Sender.detached, carried]
  | report => simp only [Sender.detached, carried]
  | record r => cases reads : p r <;> simp [Sender.detached, carried, reads]

/-- R63, R79: one circuit's records that are named by `f`. -/
theorem pullCircuit_pulled (s : State) (c : CircuitNo) :
    pullCircuit (namedBy f) line s c = modCircuit
      (returned s f ((s.circuits[c].queue.filter (namedBy f)).length + (s.circuits[c].sender.chain.filter (namedBy f)).length)
        (recordsOn (namedBy f) s.circuits[c])) c (Circuit.pulled (namedBy f) line) := by
  let x := s.circuits[c]
  let rs := x.queue.filter (namedBy f) ++ x.sender.chain.filter (namedBy f)
  let g : Circuit → Circuit := fun y =>
    { y with
      queue := x.queue.filter fun r => !namedBy f r
      sender := { y.sender with chain := x.sender.chain.filter fun r => !namedBy f r } }
  have all : ∀ r ∈ rs, r.ref = some f := by
    intro r mem
    obtain mem | mem := List.mem_append.mp mem <;> exact of_decide_eq_true (List.mem_filter.mp mem).2
  have returns : returnRecords (modCircuit s c g) rs = returned (modCircuit s c g) f rs.length rs.length :=
    returnRecords_all rs all _
  have circuit : (returned (modCircuit s c g) f rs.length rs.length).circuits[c] = g x := modAt_same _ c g
  have count : carriedCount (namedBy f) (g x).sender + rs.length = recordsOn (namedBy f) x := by
    have carried : carriedCount (namedBy f) (g x).sender = carriedCount (namedBy f) x.sender := rfl
    rw [carried, recordsOn, List.length_append]
    omega
  have pulls : pullCircuit (namedBy f) line s c = detachCarried (namedBy f) line (returnRecords (modCircuit s c g) rs) c := rfl
  have detached : (g x).sender.detached (namedBy f) line =
      { x.sender.detached (namedBy f) line with chain := x.sender.chain.filter fun r => !namedBy f r } :=
    Sender.detached_chain _ _ _
  rw [pulls, returns, detachCarried_pulled, circuit, returned_returned, count, Nat.add_zero, ← List.length_append]
  have both := modCircuit_modCircuit (returned s f rs.length (recordsOn (namedBy f) x)) c g fun y =>
    { y with sender := y.sender.detached (namedBy f) line }
  refine Eq.trans both (modCircuit_congr ?_)
  exact congrArg (fun y : Sender => { g x with sender := y }) detached

/-- R63, R79: the circuits of a list, one after the other. -/
theorem pullCircuits_pulled (cs : List CircuitNo) (nodup : cs.Nodup) (s : State) :
    cs.foldl (pullCircuit (namedBy f) line) s =
      { returned s f
          (cs.map fun c => (s.circuits[c].queue.filter (namedBy f)).length +
            (s.circuits[c].sender.chain.filter (namedBy f)).length).sum
          (cs.map fun c => recordsOn (namedBy f) s.circuits[c]).sum with
        circuits := cs.foldl (fun u c => modAt u c (Circuit.pulled (namedBy f) line)) s.circuits } := by
  induction cs generalizing s with
  | nil => exact (returned_none s f).symm
  | cons c cs ih =>
    obtain ⟨fresh, rest⟩ := List.nodup_cons.mp nodup
    have others (d : CircuitNo) (mem : d ∈ cs) :
        (pullCircuit (namedBy f) line s c).circuits[d] = s.circuits[d] := by
      rw [pullCircuit_pulled]
      exact modAt_other _ _ fun e => fresh (e ▸ mem)
    rw [List.foldl_cons, ih rest]
    have counts (g : Circuit → Nat) : (cs.map fun d => g (pullCircuit (namedBy f) line s c).circuits[d]) =
        cs.map fun d => g s.circuits[d] := List.map_congr_left fun d mem => congrArg g (others d mem)
    rw [counts fun x => (x.queue.filter (namedBy f)).length + (x.sender.chain.filter (namedBy f)).length,
      counts (recordsOn (namedBy f)), pullCircuit_pulled, List.map_cons, List.map_cons, List.sum_cons, List.sum_cons,
      Nat.add_comm (recordsOn _ _)]
    exact congrArg (fun u : State =>
      { u with circuits := (c :: cs).foldl (fun u c => modAt u c (Circuit.pulled (namedBy f) line)) s.circuits })
      (returned_returned s f _ _ _ _)

/-- R63, R79: every circuit's records that are named by `f`. -/
theorem pullRecords_pulled (s : State) :
    pullRecords (namedBy f) line s =
      { returned s f
          ((List.finRange 16).map fun c => (s.circuits[c].queue.filter (namedBy f)).length +
            (s.circuits[c].sender.chain.filter (namedBy f)).length).sum
          (recordsWhere (namedBy f) s) with
        circuits := mapAll s.circuits (Circuit.pulled (namedBy f) line) } := by
  rw [pullRecords, pullCircuits_pulled _ (List.nodup_finRange 16), foldl_modAt_all]
  rfl

end Pull

/-! ### The slot (R76, R78, R79) -/

/-- R79: what the leaving of readers has left of the superseded version is freed with it. -/
theorem freeSuperseded_dropReader (x : Slot) (t : TakeNo) : freeSuperseded (dropReader x t) t = freeSuperseded x t := by
  cases take : x.takes[t] with
  | none => simp only [dropReader, take]
  | some k =>
    cases superseded : k.superseded with
    | none => simp only [dropReader, take, superseded]
    | some r =>
      obtain ⟨v, m⟩ := r
      by_cases last : m ≤ 1
      · have dropped : dropReader x t =
            { x with
              takes := put x.takes t (some { k with superseded := none })
              blockMap := freeBlocks x.blockMap v.blocks } := by
          simp only [dropReader, take, superseded, if_pos last]
        rw [dropped]
        simp only [freeSuperseded, take, superseded, put_same]
      · have dropped : dropReader x t =
            { x with takes := put x.takes t (some { k with superseded := some (v, m - 1) }) } := by
          simp only [dropReader, take, superseded, if_neg last]
        rw [dropped]
        simp only [freeSuperseded, take, superseded, put_same, put_put]

/-- The pending count is no part of what frees a version. -/
theorem freeSuperseded_pendingCount (x : Slot) (t : TakeNo) (m : Nat) :
    freeSuperseded { x with pendingCount := m } t = { freeSuperseded x t with pendingCount := m } := by
  cases take : x.takes[t] with
  | none => simp only [freeSuperseded, take]
  | some k => cases superseded : k.superseded <;> simp only [freeSuperseded, take, superseded]

theorem dropReader_pendingCount (x : Slot) (t : TakeNo) (m : Nat) :
    dropReader { x with pendingCount := m } t = { dropReader x t with pendingCount := m } := by
  cases take : x.takes[t] with
  | none => simp only [dropReader, take]
  | some k =>
    cases superseded : k.superseded with
    | none => simp only [dropReader, take, superseded]
    | some r => by_cases last : r.2 ≤ 1 <;> simp only [dropReader, take, superseded, last, if_true, if_false]

/-- R63, R79: the slot once the superseded version and its readers are gone. -/
theorem freeSuperseded_unnamed (x : Slot) (n : SlotNo) (t : TakeNo) (j : Nat) :
    freeSuperseded (unnamed { slot := n, take := t, version := .superseded } j x) t =
      { freeSuperseded x t with pendingCount := x.pendingCount - j } := by
  induction j generalizing x with
  | zero => rw [← freeSuperseded_pendingCount]; rfl
  | succ j ih =>
    have first : unnamed { slot := n, take := t, version := .superseded } (j + 1) x =
        unnamed { slot := n, take := t, version := .superseded } j
          { dropReader x t with pendingCount := x.pendingCount - 1 } := by
      rw [← dropReader_pendingCount]
      rfl
    rw [first, ih, freeSuperseded_pendingCount, freeSuperseded_dropReader, Nat.sub_sub, Nat.add_comm 1]

end Sys2Proof.Machine
/-! ## The text replaced (O16)

R71, R78 to R80: the end of a substitute as one change of the state. -/

namespace Sys2Proof.Machine

open Sys2Proof

section Readers

variable {n : SlotNo} {t : TakeNo} {line : CutLine}

/-- A record reads one version. -/
theorem not_superseded_of_current {r : Rec} (current : reads n t .current r = true) : reads n t .superseded r = false := by
  have ref : r.ref = some { slot := n, take := t, version := .current } := of_decide_eq_true current
  refine decide_eq_false fun e => ?_
  cases ref.symm.trans e

theorem filter_current_pulled (l : List Rec) :
    (l.filter fun r => !reads n t .superseded r).filter (reads n t .current) = l.filter (reads n t .current) := by
  rw [List.filter_filter]
  refine List.filter_congr fun r _ => ?_
  cases current : reads n t .current r with
  | false => rfl
  | true => rw [not_superseded_of_current current]; rfl

theorem carriedCount_pulled (x : Sender) :
    carriedCount (reads n t .current) (x.detached (reads n t .superseded) line) =
      carriedCount (reads n t .current) x := by
  cases carried : x.carried with
  | nothing => simp only [Sender.detached, carried]
  | report => simp only [Sender.detached, carried]
  | record r =>
    cases old : reads n t .superseded r with
    | false => simp only [Sender.detached, carried, old, Bool.false_eq_true, if_false]
    | true =>
      have current : reads n t .current r = false := by
        rw [Bool.eq_false_iff]
        intro e
        exact absurd old (by rw [not_superseded_of_current e]; exact Bool.false_ne_true)
      have detached : reads n t .current { r with ref := none } = false := rfl
      simp only [Sender.detached, carried, old, if_true, carriedCount, current, detached]

/-- R78, R79: the readers of the current version are those there were before the superseded one was dropped. -/
theorem readerCount_pulled {s a : State}
    (circuits : a.circuits = mapAll s.circuits (Circuit.pulled (reads n t .superseded) line)) :
    readerCount (reads n t .current) a = readersWhere (reads n t .current) s := by
  have circuit (c : CircuitNo) : a.circuits[c] = s.circuits[c].pulled (reads n t .superseded) line := by
    rw [circuits, mapAll_get]
  have carried (c : CircuitNo) : carriedCount (reads n t .current) a.circuits[c].sender =
      carriedCount (reads n t .current) s.circuits[c].sender := by
    rw [circuit]
    exact carriedCount_pulled s.circuits[c].sender
  have chain (c : CircuitNo) : (a.circuits[c].sender.chain.filter (reads n t .current)).length =
      (s.circuits[c].sender.chain.filter (reads n t .current)).length := by
    rw [circuit]
    exact congrArg List.length (filter_current_pulled _)
  simp only [readerCount, tallyOf, readersWhere, carried, chain, List.sum_map_add]

end Readers

/-! ### The circuits (R78 to R80) -/

/-- R78 step 2 on one circuit: its readers of the current version read the superseded one. -/
def Circuit.moved (n : SlotNo) (t : TakeNo) (x : Circuit) : Circuit :=
  { x with sender := { x.sender with
    chain := x.sender.chain.map (toSuperseded n t)
    carried := match x.sender.carried with
      | .record r => .record (toSuperseded n t r)
      | y => y } }

/-- R80 on one circuit: its queued records of the take are rewritten. -/
def Circuit.rewritten (n : SlotNo) (t : TakeNo) (x : Circuit) : Circuit := { x with queue := x.queue.map (rewrite n t) }

theorem moveReaders_eq (s : State) (n : SlotNo) (t : TakeNo) :
    moveReaders s n t = { s with circuits := mapAll s.circuits (Circuit.moved n t) } := rfl

theorem rewriteQueued_eq (s : State) (n : SlotNo) (t : TakeNo) :
    rewriteQueued s n t = { s with circuits := mapAll s.circuits (Circuit.rewritten n t) } := rfl

theorem substituted_eq (n : SlotNo) (t : TakeNo) (x : Circuit) :
    ((x.pulled (reads n t .superseded) .storeCut).moved n t).rewritten n t = x.substituted n t := by
  have detached (r : Rec) : toSuperseded n t { r with ref := none } = { r with ref := none } := rfl
  cases carried : x.sender.carried with
  | nothing =>
    simp only [Circuit.substituted, Circuit.rewritten, Circuit.moved, Circuit.pulled, Sender.detached, carried]
    rfl
  | report =>
    simp only [Circuit.substituted, Circuit.rewritten, Circuit.moved, Circuit.pulled, Sender.detached, carried]
    rfl
  | record r =>
    cases old : reads n t .superseded r with
    | false =>
      simp only [Circuit.substituted, Circuit.rewritten, Circuit.moved, Circuit.pulled, Sender.detached, carried, old,
        Bool.false_eq_true, if_false]
      rfl
    | true =>
      simp only [Circuit.substituted, Circuit.rewritten, Circuit.moved, Circuit.pulled, Sender.detached, carried, old,
        if_true, detached]
      rfl

theorem mapAll_mapAll {α : Type} {m : Nat} (v : Vector α m) (f g : α → α) :
    mapAll (mapAll v f) g = mapAll v fun x => g (f x) := by
  refine array_ext fun i => ?_
  simp only [mapAll_get]

/-! ### The slot (R76, R78) -/

theorem freeBlocks_freeBlocks (m : BitSet 64) (as bs : List BlockNo) :
    freeBlocks (freeBlocks m as) bs = freeBlocks m (as ++ bs) := by
  refine array_ext fun b => ?_
  simp [freeBlocks, Bool.and_assoc]

/-- The blocks of the superseded version, if there is one. -/
def Take.supersededBlocks (k : Take) : List BlockNo := ((k.superseded.map Prod.fst).toList.map Version.blocks).flatten

theorem freeSuperseded_present {x : Slot} {t : TakeNo} {k : Take} (take : x.takes[t] = some k) :
    freeSuperseded x t = { x with
      takes := put x.takes t (some { k with superseded := none })
      blockMap := freeBlocks x.blockMap k.supersededBlocks } := by
  cases superseded : k.superseded with
  | some r => simp [freeSuperseded, take, superseded, Take.supersededBlocks]
  | none =>
    have kept : freeBlocks x.blockMap k.supersededBlocks = x.blockMap := by
      refine array_ext fun b => ?_
      simp [freeBlocks, Take.supersededBlocks, superseded]
    have same : { k with superseded := none } = k := by rw [← superseded]
    rw [kept, same, put_id take]
    simp only [freeSuperseded, take, superseded]

theorem replaceVersion_present {x : Slot} {t : TakeNo} {k : Take} {v : Version} {cl : Class} (readers : Nat)
    (take : x.takes[t] = some k) (sub : k.replacement = some (v, cl)) (left : k.fillingLine = none) :
    replaceVersion readers t x = { x with
      takes := put x.takes t (some (k.replaced readers v cl))
      blockMap := freeBlocks x.blockMap (if readers = 0 then k.current.blocks else []) } := by
  have result : ({ k with
      current := v, cls := cl, replacement := none
      superseded := if readers = 0 then none else some (k.current, readers)
      subCount := satInc Config.subCountTop k.subCount } : Take) = k.replaced readers v cl := by
    rw [Take.replaced, ← left]
    rfl
  have kept : freeBlocks x.blockMap [] = x.blockMap := by
    refine array_ext fun b => ?_
    simp [freeBlocks]
  have replaced : replaceVersion readers t x = { x with
      takes := put x.takes t (some { k with
        current := v, cls := cl, replacement := none
        superseded := if readers = 0 then none else some (k.current, readers)
        subCount := satInc Config.subCountTop k.subCount })
      blockMap := if readers = 0 then freeBlocks x.blockMap k.current.blocks else x.blockMap } := by
    simp only [replaceVersion, take, sub]
  rw [replaced, result]
  split
  · rfl
  · rw [kept]

/-- R78 steps 1 to 4 in the slot. -/
theorem replaceVersion_freed {x : Slot} {t : TakeNo} {k : Take} {v : Version} {cl : Class} (readers m : Nat)
    (take : x.takes[t] = some k) (sub : k.replacement = some (v, cl)) (left : k.fillingLine = none) :
    replaceVersion readers t { freeSuperseded x t with pendingCount := m } =
      { x with
        pendingCount := m
        takes := put x.takes t (some (k.replaced readers v cl))
        blockMap := freeBlocks x.blockMap (k.supersededBlocks ++ if readers = 0 then k.current.blocks else []) } := by
  have same : ({ k with superseded := none } : Take).replaced readers v cl = k.replaced readers v cl := rfl
  rw [freeSuperseded_present take, replaceVersion_present (k := { k with superseded := none }) readers (put_same _ t _) sub left]
  simp only [put_put, freeBlocks_freeBlocks, same]

/-- R78: the blocks that a substitute frees. -/
theorem substitute_blocks (k : Take) (readers : Nat) (m : BitSet 64) :
    freeBlocks m (k.supersededBlocks ++ if readers = 0 then k.current.blocks else []) =
      tabulate 64 fun b => m[b] &&
        !(decide (b ∈ ((k.superseded.map Prod.fst).toList.map Version.blocks).flatten) ||
          (decide (readers = 0) && decide (b ∈ k.current.blocks))) := by
  rw [← freeBlocks_freeBlocks]
  refine array_ext fun b => ?_
  by_cases unread : readers = 0
  · rw [if_pos unread]
    simp only [freeBlocks, tabulate_get, Take.supersededBlocks, unread, Bool.and_assoc, Bool.not_or, decide_true, Bool.true_and]
    rfl
  · rw [if_neg unread]
    simp only [freeBlocks, tabulate_get, Take.supersededBlocks, unread, List.not_mem_nil, decide_false, Bool.false_and,
      Bool.or_false, Bool.not_false, Bool.and_true]
    rfl

/-! ### The state (R71, R78 to R80) -/

section State

variable {s : State} {n : SlotNo} {t : TakeNo} {k : Take} {v : Version} {cl : Class}

/-- R79: the superseded version has been dropped, and its readers with it. -/
theorem dropSuperseded_eq (s : State) (n : SlotNo) (t : TakeNo) :
    dropSuperseded s n t = { s with
      freeCount := s.freeCount + ((List.finRange 16).map fun c =>
        (s.circuits[c].queue.filter (reads n t .superseded)).length +
          (s.circuits[c].sender.chain.filter (reads n t .superseded)).length).sum
      circuits := mapAll s.circuits (Circuit.pulled (reads n t .superseded) .storeCut)
      slots := modAt s.slots n fun x =>
        { freeSuperseded x t with pendingCount := x.pendingCount - recordsWhere (reads n t .superseded) s } } := by
  have old : reads n t .superseded = namedBy { slot := n, take := t, version := .superseded } := rfl
  rw [dropSuperseded, old, pullRecords_pulled]
  simp only [modSlot, returned, modAt_modAt, freeSuperseded_unnamed]

/-- R78 to R80: what `replaceText` leaves. -/
theorem replaceText_eq (take : takeAt s n t = some k) (sub : k.replacement = some (v, cl)) (left : k.fillingLine = none) :
    replaceText s n t = { afterSubstitute s n t k v cl with recency := s.recency } := by
  have dropped := dropSuperseded_eq s n t
  have readers : readerCount (reads n t .current) (dropSuperseded s n t) = readersWhere (reads n t .current) s :=
    readerCount_pulled (line := .storeCut) (by rw [dropped])
  have circuits : mapAll (mapAll (mapAll s.circuits (Circuit.pulled (reads n t .superseded) .storeCut))
      (Circuit.moved n t)) (Circuit.rewritten n t) = mapAll s.circuits (Circuit.substituted n t) := by
    rw [mapAll_mapAll, mapAll_mapAll]
    exact congrArg (mapAll s.circuits) (funext (substituted_eq n t))
  have replaced : replaceText s n t = rewriteQueued (modSlot (moveReaders (dropSuperseded s n t) n t) n
      (replaceVersion (readerCount (reads n t .current) (dropSuperseded s n t)) t)) n t := rfl
  rw [replaced, readers, dropped, moveReaders_eq, rewriteQueued_eq]
  have slot : replaceVersion (readersWhere (reads n t .current) s) t { freeSuperseded s.slots[n] t with
      pendingCount := s.slots[n].pendingCount - recordsWhere (reads n t .superseded) s } = _ :=
    replaceVersion_freed _ _ take sub left
  rw [substitute_blocks] at slot
  simp only [modSlot, circuits, modAt_modAt]
  simp only [modAt, slot]
  rfl

end State

end Sys2Proof.Machine
/-! ## Records made for a story (O16)

R113: with a free record for each circuit and nothing coming in the middle of the making, each circuit of the list has one
record more, and no other circuit is touched. -/

namespace Sys2Proof.Machine

open Sys2Proof

/-! ### Records of a circuit that begins work (R122, R135, R136) -/

theorem length_filter_cons (p : Rec → Bool) (r : Rec) (l : List Rec) :
    ((r :: l).filter p).length = (l.filter p).length + if p r then 1 else 0 := by
  cases holds : p r <;> simp [holds]

theorem length_filter_concat (p : Rec → Bool) (r : Rec) (l : List Rec) :
    ((l ++ [r]).filter p).length = (l.filter p).length + if p r then 1 else 0 := by
  rw [List.filter_append, List.length_append, length_filter_cons]
  simp

section Records

variable {m : State} {c : CircuitNo} {x y : Circuit}

/-- R122, R135: what is begun was queued or suspended, or is no record. -/
theorem Begun.recordsOn {motor : Bool} (begun : Begun m c motor x y) (idle : x.sender.carried = .nothing) (p : Rec → Bool) :
    recordsOn p y = recordsOn p x := by
  have nothing : carriedCount p x.sender = 0 := by simp only [carriedCount, idle]
  have took := begun.took
  cases chosen : choose m c with
  | nothing =>
    simp only [TookUp, chosen] at took
  | report =>
    simp only [TookUp, chosen] at took
    obtain ⟨carried, -, queue, chain⟩ := took
    have report : carriedCount p y.sender = 0 := by simp only [carriedCount, carried]
    simp only [Machine.recordsOn, nothing, report, queue, chain]
  | start i =>
    simp only [TookUp, chosen] at took
    obtain ⟨r, queued, carried, queue, chain⟩ := took
    obtain ⟨bound, rfl⟩ := List.getElem?_eq_some_iff.mp queued
    have split := ((List.getElem_cons_eraseIdx_perm bound).filter p).length_eq
    have record : carriedCount p y.sender = if p x.queue[i] then 1 else 0 := by simp only [carriedCount, carried]
    rw [length_filter_cons] at split
    rw [Machine.recordsOn, Machine.recordsOn, nothing, record, queue, chain, ← split]
    omega
  | resume r =>
    simp only [TookUp, chosen] at took
    obtain ⟨carried, queue, chain⟩ := took
    have record : carriedCount p y.sender = if p r then 1 else 0 := by simp only [carriedCount, carried]
    rw [Machine.recordsOn, Machine.recordsOn, nothing, record, queue, chain, length_filter_concat]
    omega

/-- R133, R136: an offer of work moves records, and neither makes nor ends one. -/
theorem Offered.recordsOn (offered : Offered m c x y)
    (idle : x.sender.state ≠ .carrying → x.sender.state ≠ .closing → x.sender.carried = .nothing) (p : Rec → Bool) :
    recordsOn p y = recordsOn p x := by
  cases state : x.sender.state with
  | stopped =>
    have nothing := idle (by rw [state]; decide) (by rw [state]; decide)
    simp only [Offered, state] at offered
    split at offered
    · unfold Started at offered
      split at offered
      · exact offered.recordsOn nothing p
      · rw [offered]
        rfl
    · rw [offered]
  | pausing =>
    have nothing := idle (by rw [state]; decide) (by rw [state]; decide)
    simp only [Offered, state] at offered
    split at offered
    · exact offered.recordsOn nothing p
    · rw [offered]
  | starting => simp only [Offered, state] at offered; rw [offered]
  | carrying => simp only [Offered, state] at offered; rw [offered]
  | closing => simp only [Offered, state] at offered; rw [offered]

end Records

/-- R112: a sender told of a record that has joined its queue. -/
theorem tellJoined_recordsOn {s : State} {c : CircuitNo}
    (idle : s.circuits[c].sender.state ≠ .carrying → s.circuits[c].sender.state ≠ .closing →
      s.circuits[c].sender.carried = .nothing) (x : Class) (p : Rec → Bool) :
    recordsOn p (tellJoined s c x).circuits[c] = recordsOn p s.circuits[c] := by
  have offered := (offer_offered s c).recordsOn idle p
  unfold tellJoined
  split
  · unfold breakIfPending
    split
    · split
      · have pending : (modSender s c fun y => { y with breakPending := true }).circuits[c] =
            { s.circuits[c] with sender := { s.circuits[c].sender with breakPending := true } } := modAt_same _ c _
        rw [pending]
        rfl
      · rfl
    · rfl
  · exact offered

theorem recordsOn_concat (p : Rec → Bool) (r : Rec) (x : Circuit) :
    recordsOn p { x with queue := x.queue ++ [r] } = recordsOn p x + if p r then 1 else 0 := by
  simp only [recordsOn, length_filter_concat]
  omega

/-- R112: a record joins a circuit. -/
theorem joinQueue_recordsOn {s : State} {c : CircuitNo}
    (idle : s.circuits[c].sender.state ≠ .carrying → s.circuits[c].sender.state ≠ .closing →
      s.circuits[c].sender.carried = .nothing) {r : Rec} {p : Rec → Bool} (counted : p r = true) :
    recordsOn p (joinQueue s c r).circuits[c] = recordsOn p s.circuits[c] + 1 := by
  have joined : (modQueue s c fun q => q ++ [r]).circuits[c] = { s.circuits[c] with queue := s.circuits[c].queue ++ [r] } :=
    modAt_same _ c _
  have told := tellJoined_recordsOn (s := modQueue s c fun q => q ++ [r]) (c := c) (by rw [joined]; exact idle) r.cls p
  rw [joinQueue, told, joined, recordsOn_concat, if_pos counted]

/-! ### A making (R113) -/

/-- Records for the circuits `cs`, counted by `p`, have been made from free records for slot `n`. -/
structure Made (n : SlotNo) (cs : List CircuitNo) (p : Rec → Bool) (s u : State) : Prop where
  lines : u.lines = s.lines
  recency : u.recency = s.recency
  freeCount : u.freeCount = s.freeCount - cs.length
  slots : u.slots = modAt s.slots n fun x => { x with pendingCount := x.pendingCount + cs.length }
  made : ∀ c ∈ cs, recordsOn p u.circuits[c] = recordsOn p s.circuits[c] + 1
  others : ∀ c : CircuitNo, c ∉ cs → u.circuits[c] = s.circuits[c]
  meanwhile : u.meanwhile = s.meanwhile

theorem makeFree_made {s : State} {c : CircuitNo} {n : SlotNo} {r : Rec} {p : Rec → Bool} (counted : p r = true)
    (idle : s.circuits[c].sender.state ≠ .carrying → s.circuits[c].sender.state ≠ .closing →
      s.circuits[c].sender.carried = .nothing) : Made n [c] p s (makeFree s c n r) := by
  let w := addPending { s with freeCount := s.freeCount - 1 } n
  have only : OnlyCircuit c w (joinQueue w c r) := joinQueue_only w c r
  have joined : recordsOn p (joinQueue w c r).circuits[c] = recordsOn p s.circuits[c] + 1 :=
    joinQueue_recordsOn (s := w) idle counted
  exact
    { lines := only.delivery.lines
      recency := only.delivery.recency
      freeCount := only.freeCount
      slots := only.slots
      made := by
        intro d mem
        obtain rfl := List.mem_singleton.mp mem
        exact joined
      others := fun d fresh => only.other fun e => fresh (e ▸ List.mem_singleton_self _)
      meanwhile := by
        unfold OnlyCircuit at only
        exact (congrArg State.meanwhile only :) }

/-- R113: with a free record for each circuit. -/
theorem makeRecords_made {n : SlotNo} {r : Rec} {p : Rec → Bool} (counted : p r = true) (cs : List CircuitNo) {s : State}
    (nodup : cs.Nodup) (idle : ∀ c ∈ cs, s.circuits[c].sender.state ≠ .carrying → s.circuits[c].sender.state ≠ .closing →
      s.circuits[c].sender.carried = .nothing) (enough : cs.length ≤ s.freeCount) (nothing : s.meanwhile = []) :
    Made n cs p s (makeRecords s cs n r) := by
  induction cs generalizing s with
  | nil =>
    have same : modAt s.slots n (fun x => { x with pendingCount := x.pendingCount + 0 }) = s.slots := modAt_id _ _ _ rfl
    exact ⟨rfl, rfl, rfl, same.symm, fun c mem => (nomatch mem), fun _ _ => rfl, rfl⟩
  | cons c cs ih =>
    obtain ⟨fresh, rest⟩ := List.nodup_cons.mp nodup
    rw [List.length_cons] at enough
    have turn : makeTurn n r s c = makeFree s c n r := by
      have free : 0 < s.freeCount := by omega
      rw [makeTurn_none n r s c nothing, turnFor, if_pos free]
    have first : Made n [c] p s (makeFree s c n r) := makeFree_made counted (idle c List.mem_cons_self)
    have untouched (d : CircuitNo) (mem : d ∈ cs) : (makeFree s c n r).circuits[d] = s.circuits[d] :=
      first.others d fun e => fresh (List.mem_singleton.mp e ▸ mem)
    have left : cs.length ≤ (makeFree s c n r).freeCount := by
      rw [first.freeCount, List.length_singleton]
      omega
    have after := ih rest (fun d mem => by rw [untouched d mem]; exact idle d (List.mem_cons_of_mem c mem)) left
      (first.meanwhile.trans nothing)
    have turns : makeRecords s (c :: cs) n r = makeRecords (makeFree s c n r) cs n r := by rw [← turn]; rfl
    rw [turns]
    exact
      { lines := after.lines.trans first.lines
        recency := after.recency.trans first.recency
        freeCount := by rw [after.freeCount, first.freeCount, List.length_singleton, List.length_cons]; omega
        slots := by
          rw [after.slots, first.slots, modAt_modAt, List.length_singleton, List.length_cons, Nat.add_comm cs.length]
          simp only [Nat.add_assoc]
        made := by
          intro d mem
          obtain rfl | mem := List.mem_cons.mp mem
          · rw [after.others d fresh, first.made d (List.mem_singleton_self d)]
          · rw [after.made d mem, untouched d mem]
        others := by
          intro d absent
          rw [after.others d fun mem => absent (List.mem_cons_of_mem c mem),
            first.others d fun mem => absent (List.mem_cons.mpr (Or.inl (List.mem_singleton.mp mem)))]
        meanwhile := after.meanwhile.trans first.meanwhile }

end Sys2Proof.Machine
/-! ## A substitute closed (O16) -/

namespace Sys2Proof.Machine

open Sys2Proof

/-- What a substitute leaves of its slot, `old` records of the superseded version removed and `readers` moved to it. -/
def Slot.substituted (old readers : Nat) (t : TakeNo) (k : Take) (v : Version) (cl : Class) (x : Slot) : Slot :=
  { x with
    pendingCount := x.pendingCount - old
    takes := put x.takes t (some (k.replaced readers v cl))
    blockMap := tabulate 64 fun b => x.blockMap[b] &&
      !(decide (b ∈ ((k.superseded.map Prod.fst).toList.map Version.blocks).flatten) ||
        (decide (readers = 0) && decide (b ∈ k.current.blocks))) }

theorem afterSubstitute_slots (s : State) (n : SlotNo) (t : TakeNo) (k : Take) (v : Version) (cl : Class) :
    (afterSubstitute s n t k v cl).slots = modAt s.slots n (Slot.substituted (recordsWhere (reads n t .superseded) s)
      (readersWhere (reads n t .current) s) t k v cl) := rfl

/-- How the take stood in the slot is of no account but by its versions. -/
theorem Slot.substituted_modTake (old readers : Nat) (t : TakeNo) (k : Take) (v : Version) (cl : Class) (x : Slot)
    (f : Option Take → Option Take) :
    ({ x with takes := modAt x.takes t f } : Slot).substituted old readers t { k with fillingLine := none } v cl =
      x.substituted old readers t k v cl := by
  have takes : put (modAt x.takes t f) t (some (k.replaced readers v cl)) = put x.takes t (some (k.replaced readers v cl)) :=
    put_put _ t _ _
  exact congrArg (fun takes => { x.substituted old readers t k v cl with takes := takes }) takes

section Close

variable {s : State} {l : LineNo} {sh : Shift} {n : SlotNo} {t : TakeNo} {k : Take} {v : Version} {cl : Class}

theorem exec_copyClosing {x : BitVec 7} (arrived : arrives s l x (some (ch 'E')) sh)
    (body : s.lines[l].framer.state = .copyBody) (takeRef : s.lines[l].framer.takeRef = some (n, t))
    (full : s.lines[l].framer.held = 2) :
    exec (.characterArrives l x true) s =
      .next (atOnce (rested (takeEnds (toHunt (shifted s l sh) l) n t false) l)) := by
  have none : (2 : Fin 3) ≠ 0 := by decide
  have one : (2 : Fin 3) ≠ 1 := by decide
  have noC : ch 'E' ≠ ch 'C' := by decide
  have noM : ch 'E' ≠ ch 'M' := by decide
  rw [exec_bodyChar arrived (Or.inl body)]
  simp only [bodyChar, shifted_framer, full, if_neg none, if_neg one, if_neg noC, if_neg noM, if_true, takeClosing, body,
    takeRef]

/-- R71, R78 to R80: the end of a substitute, before it is released or gated. -/
theorem replaceText_takeLeft (take : takeAt s n t = some k) (sub : k.replacement = some (v, cl)) :
    replaceText (takeLeft s n t false) n t = afterSubstitute s n t k v cl := by
  let k' : Take := { k with fillingLine := none }
  have left : takeAt (takeLeft s n t false) n t = some k' := takeAt_takeLeft take false
  let unfilled : Slot → Slot := fun x =>
    { x with takes := modAt x.takes t (Option.map fun x => { x with fillingLine := none }) }
  have slots : (afterSubstitute (takeLeft s n t false) n t k' v cl).slots = (afterSubstitute s n t k v cl).slots := by
    have both := modAt_modAt s.slots n unfilled (Slot.substituted (recordsWhere (reads n t .superseded) s)
      (readersWhere (reads n t .current) s) t k' v cl)
    have each : (fun x => (unfilled x).substituted (recordsWhere (reads n t .superseded) s)
        (readersWhere (reads n t .current) s) t k' v cl) =
        Slot.substituted (recordsWhere (reads n t .superseded) s) (readersWhere (reads n t .current) s) t k v cl :=
      funext fun x => Slot.substituted_modTake _ _ t k v cl x _
    rw [afterSubstitute_slots s n t k v cl, ← each]
    exact both
  rw [replaceText_eq left sub rfl]
  exact congrArg (fun slots => { afterSubstitute s n t k v cl with slots := slots }) slots

/-- The take as the substitute leaves it. -/
theorem takeAt_afterSubstitute (s : State) (n : SlotNo) (t : TakeNo) (k : Take) (v : Version) (cl : Class) :
    takeAt (afterSubstitute s n t k v cl) n t = some (k.replaced (readersWhere (reads n t .current) s) v cl) := by
  rw [takeAt, afterSubstitute_slots, modAt_same]
  exact put_same _ t _

theorem storeSubstitute_released {a : State} (replaced : replaceText s n t = a) (take : takeAt a n t = some k)
    (released : k.releasedFlag = true) : storeSubstitute s n t =
      makeFor (modTake a n t fun x => { x with state := .released }) n t .sub [] (queuedOn a n t) := by
  unfold storeSubstitute
  rw [replaced]
  simp only [take]
  exact if_pos released

theorem storeSubstitute_gated {a : State} (replaced : replaceText s n t = a) (take : takeAt a n t = some k)
    (unreleased : k.releasedFlag = false) : storeSubstitute s n t = gate a n t := by
  unfold storeSubstitute
  rw [replaced]
  simp only [take]
  exact if_neg (by rw [unreleased]; exact Bool.false_ne_true)

/-- R81: a take released before is released again. -/
theorem takeEnds_released (take : takeAt s n t = some k) (sub : k.replacement = some (v, cl))
    (released : k.releasedFlag = true) :
    takeEnds s n t false =
      makeFor (modTake (afterSubstitute s n t k v cl) n t fun x => { x with state := .released }) n t .sub []
        (queuedOn (afterSubstitute s n t k v cl) n t) := by
  rw [takeEnds_substitute take sub]
  exact storeSubstitute_released (replaceText_takeLeft take sub) (takeAt_afterSubstitute s n t k v cl) released

/-- R81: another passes the gate. -/
theorem takeEnds_gated (take : takeAt s n t = some k) (sub : k.replacement = some (v, cl))
    (unreleased : k.releasedFlag = false) : takeEnds s n t false = gate (afterSubstitute s n t k v cl) n t := by
  rw [takeEnds_substitute take sub]
  exact storeSubstitute_gated (replaceText_takeLeft take sub) (takeAt_afterSubstitute s n t k v cl) unreleased

/-- R72: the numbers below a substitute's own are cleared or not as they were. -/
theorem cleared_afterSubstitute {j : TakeNo} (below : j < t) :
    cleared (afterSubstitute s n t k v cl).slots[n] j = cleared s.slots[n] j := by
  have other : (put s.slots[n].takes t (some (k.replaced (readersWhere (reads n t .current) s) v cl)))[j] =
      s.slots[n].takes[j] := put_other _ _ (ne_of_lt below)
  rw [afterSubstitute_slots, modAt_same]
  simp only [cleared, Slot.substituted, other]

/-- R73: with a lower number not cleared, the take waits. -/
theorem gate_waits (unpassed : s.slots[n].passed[t] = false) (blocked : ∃ j : TakeNo, j < t ∧ cleared s.slots[n] j = false)
    (waits : s.takeWait ≠ 0) :
    gate s n t = modTake s n t fun k => { k with state := .waiting, waitTimer := some s.takeWait } := by
  have notClear : lowerCleared s.slots[n] t = false := by
    obtain ⟨j, below, notCleared⟩ := blocked
    rw [Bool.eq_false_iff]
    intro all
    have at_j := List.all_eq_true.mp all j (List.mem_finRange j)
    rw [notCleared, decide_eq_true below] at at_j
    cases at_j
  simp only [gate, unpassed, notClear, Bool.false_eq_true, if_false, if_neg waits]

/-- The framer's return to HUNT, and the rest of the line, are no matter of the story. -/
theorem rested_afterSubstitute (service : lineInService s.lines[l] = true) :
    rested (afterSubstitute (toHunt (shifted s l sh) l) n t k v cl) l =
      afterSubstitute (withLine s l sh Framer.reset s.lines[l].counters) n t k v cl := by
  have line := rested_modFramer (sh := sh) (g := fun _ => Framer.reset) service
  exact congrArg (fun u => afterSubstitute u n t k v cl) line

/-! ### The release (R77, R81) -/

/-- R94 to R96: routing is told by the route table, the two sets and the service of the circuits. -/
theorem routedSet_congr {s u : State} (routes : u.routes = s.routes) (defaults : u.defaultSet = s.defaultSet)
    (flash : u.flashSet = s.flashSet)
    (service : ∀ c : CircuitNo, circuitInService u.circuits[c] = circuitInService s.circuits[c]) (g : Category) (a : Agency)
    (c : Class) : routedSet u g a c = routedSet s g a c := by
  simp only [routedSet, matchSet, routes, defaults, flash, service]

theorem routedSet_nodup (s : State) (g : Category) (a : Agency) (c : Class) : (routedSet s g a c).Nodup :=
  ((List.nodup_finRange 16).filter _).filter _

theorem afterSubstitute_circuit (s : State) (n : SlotNo) (t : TakeNo) (k : Take) (v : Version) (cl : Class)
    (c : CircuitNo) : (afterSubstitute s n t k v cl).circuits[c] = s.circuits[c].substituted n t :=
  mapAll_get s.circuits _ c

theorem substituted_inService (n : SlotNo) (t : TakeNo) (x : Circuit) :
    circuitInService (x.substituted n t) = circuitInService x := rfl

theorem substituted_idle (n : SlotNo) (t : TakeNo) {x : Circuit}
    (idle : x.sender.state ≠ .carrying → x.sender.state ≠ .closing → x.sender.carried = .nothing) :
    (x.substituted n t).sender.state ≠ .carrying → (x.substituted n t).sender.state ≠ .closing →
      (x.substituted n t).sender.carried = .nothing := by
  intro notCarrying notClosing
  have nothing := idle notCarrying notClosing
  simp only [Circuit.substituted, nothing]

theorem mem_queuedOn {s : State} {n : SlotNo} {t : TakeNo} {c : CircuitNo} :
    c ∈ queuedOn s n t ↔ s.circuits[c].queue.any (ofTake n t) = true := by
  simp only [queuedOn, List.mem_filter, List.mem_finRange, true_and]

/-- R80, R81: the circuits for which the released substitute has records made. -/
def subCircuits (s : State) (n : SlotNo) (t : TakeNo) (routed : List CircuitNo) : List CircuitNo :=
  routed.filter fun c => !(s.circuits[c].queue.any (ofTake n t))

/-- R77, R81: the records of kind SUB. -/
theorem makeFor_sub {a : State} {x : Take} {y : Key} {g : Category} (take : takeAt a n t = some x)
    (key : a.slots[n].key = some y) (category : a.slots[n].category = some g) :
    makeFor (modTake a n t fun x => { x with state := .released }) n t .sub [] (queuedOn a n t) =
      makeRecords (modTake a n t fun x => { x with state := .released })
        (subCircuits a n t (routedSet a g y.agency x.cls)) n (freshRecord n t x.cls .sub []) := by
  let b := modTake a n t fun x => { x with state := .released }
  have slot : b.slots[n] =
      { a.slots[n] with takes := modAt a.slots[n].takes t (Option.map fun x => { x with state := .released }) } :=
    modAt_same _ n _
  have take' : takeAt b n t = some { x with state := .released } := by
    rw [takeAt_modTake_same, take]
    rfl
  have key' : b.slots[n].key = some y := by rw [slot]; exact key
  have category' : b.slots[n].category = some g := by rw [slot]; exact category
  have route : routeStory b n x.cls = routedSet a g y.agency x.cls := by
    simp only [routeStory, key', category']
    exact routedSet_congr rfl rfl rfl (fun _ => rfl) g y.agency x.cls
  have circuits : ((routedSet a g y.agency x.cls).filter fun c => !decide (c ∈ queuedOn a n t)) =
      subCircuits a n t (routedSet a g y.agency x.cls) := by
    refine List.filter_congr fun c _ => ?_
    simp only [mem_queuedOn, Bool.decide_eq_true]
  have made : makeFor b n t .sub [] (queuedOn a n t) = makeRecords b
      ((routeStory b n x.cls).filter fun c => !decide (c ∈ queuedOn a n t)) n (freshRecord n t x.cls .sub []) := by
    simp only [makeFor, take']
  rw [made, route, circuits]

theorem Slot.substituted_key (old readers : Nat) (t : TakeNo) (k : Take) (v : Version) (cl : Class) (x : Slot) :
    (x.substituted old readers t k v cl).key = x.key := rfl

theorem Slot.substituted_category (old readers : Nat) (t : TakeNo) (k : Take) (v : Version) (cl : Class) (x : Slot) :
    (x.substituted old readers t k v cl).category = x.category := rfl

theorem Slot.substituted_passed (old readers : Nat) (t : TakeNo) (k : Take) (v : Version) (cl : Class) (x : Slot) :
    (x.substituted old readers t k v cl).passed = x.passed := rfl

theorem Take.replaced_cls (readers : Nat) (v : Version) (cl : Class) (k : Take) : (k.replaced readers v cl).cls = cl := rfl

theorem subCircuits_nodup (s : State) (n : SlotNo) (t : TakeNo) {routed : List CircuitNo} (nodup : routed.Nodup) :
    (subCircuits s n t routed).Nodup := nodup.filter _

theorem afterSubstitute_routes (s : State) (n : SlotNo) (t : TakeNo) (k : Take) (v : Version) (cl : Class) (g : Category)
    (a : Agency) (c : Class) : routedSet (afterSubstitute s n t k v cl) g a c = routedSet s g a c := by
  refine routedSet_congr (s := s) (u := afterSubstitute s n t k v cl) rfl rfl rfl (fun d => ?_) g a c
  rw [afterSubstitute_circuit]
  exact substituted_inService n t _

/-- R81: the end of a substitute of a take released before makes its records. -/
theorem takeEnds_makes {y : Key} {g : Category} {cs : List CircuitNo} {a : State} {p : Rec → Bool}
    (take : takeAt s n t = some k) (sub : k.replacement = some (v, cl)) (released : k.releasedFlag = true)
    (nothing : s.meanwhile = []) (idle : IdleCarriesNothing s) (key : s.slots[n].key = some y)
    (category : s.slots[n].category = some g) (after : afterSubstitute s n t k v cl = a)
    (routed : cs = subCircuits a n t (routedSet s g y.agency cl)) (enough : cs.length ≤ a.freeCount)
    (counted : p (freshRecord n t cl .sub []) = true) :
    Made n cs p (modTake a n t fun x => { x with state := .released }) (takeEnds s n t false) := by
  have taken : takeAt a n t = some (k.replaced (readersWhere (reads n t .current) s) v cl) := by
    rw [← after]
    exact takeAt_afterSubstitute s n t k v cl
  have key' : a.slots[n].key = some y := by
    rw [← after, afterSubstitute_slots, modAt_same, Slot.substituted_key]
    exact key
  have category' : a.slots[n].category = some g := by
    rw [← after, afterSubstitute_slots, modAt_same, Slot.substituted_category]
    exact category
  have routes : routedSet a g y.agency cl = routedSet s g y.agency cl := by
    rw [← after]
    exact afterSubstitute_routes s n t k v cl g y.agency cl
  have circuit (c : CircuitNo) : a.circuits[c] = s.circuits[c].substituted n t := by
    rw [← after]
    exact afterSubstitute_circuit s n t k v cl c
  have quiet : a.meanwhile = [] := by
    rw [← after]
    exact nothing
  have ends : takeEnds s n t false =
      makeRecords (modTake a n t fun x => { x with state := .released }) cs n (freshRecord n t cl .sub []) := by
    have made := makeFor_sub taken key' category'
    rw [Take.replaced_cls, routes, ← routed] at made
    rw [takeEnds_released take sub released, after]
    exact made
  rw [ends]
  refine makeRecords_made counted cs ?_ (fun c _ => ?_) enough quiet
  · rw [routed]
    exact subCircuits_nodup a n t (routedSet_nodup s g y.agency cl)
  · have same : (modTake a n t fun x => { x with state := .released }).circuits[c] = s.circuits[c].substituted n t := circuit c
    rw [same]
    exact substituted_idle n t (idle c)

/-- R81: a substitute of a take released before, released again. -/
theorem rested_released {y : Key} {g : Category} {cs : List CircuitNo} {a : State} {p : Rec → Bool}
    (service : lineInService s.lines[l] = true) (take : takeAt s n t = some k) (sub : k.replacement = some (v, cl))
    (released : k.releasedFlag = true) (nothing : s.meanwhile = []) (idle : IdleCarriesNothing s)
    (key : s.slots[n].key = some y) (category : s.slots[n].category = some g)
    (after : afterSubstitute (withLine s l sh Framer.reset s.lines[l].counters) n t k v cl = a)
    (routed : cs = subCircuits a n t (routedSet s g y.agency cl)) (enough : cs.length ≤ a.freeCount)
    (counted : p (freshRecord n t cl .sub []) = true) :
    Made n cs p (modTake a n t fun x => { x with state := .released })
      (rested (takeEnds (toHunt (shifted s l sh) l) n t false) l) := by
  let h := toHunt (shifted s l sh) l
  have line := rested_afterSubstitute (n := n) (t := t) (k := k) (v := v) (cl := cl) (sh := sh) service
  rw [after] at line
  have made : Made n cs p (modTake (afterSubstitute h n t k v cl) n t fun x => { x with state := .released })
      (takeEnds h n t false) :=
    takeEnds_makes (s := h) (y := y) (g := g) take sub released nothing idle key category rfl
      (by rw [routed, ← line]; rfl) (by rw [← line] at enough; exact enough) counted
  rw [← line]
  exact
    { lines := rested_lines made.lines l
      recency := made.recency
      freeCount := made.freeCount
      slots := made.slots
      made := made.made
      others := made.others
      meanwhile := made.meanwhile }

/-- R73, R81: another substitute waits where a lower number is not cleared. -/
theorem rested_waits {a : State} (service : lineInService s.lines[l] = true) (take : takeAt s n t = some k)
    (sub : k.replacement = some (v, cl)) (unreleased : k.releasedFlag = false) (unpassed : s.slots[n].passed[t] = false)
    (blocked : ∃ j : TakeNo, j < t ∧ cleared s.slots[n] j = false) (waits : s.takeWait ≠ 0)
    (after : afterSubstitute (withLine s l sh Framer.reset s.lines[l].counters) n t k v cl = a) :
    rested (takeEnds (toHunt (shifted s l sh) l) n t false) l =
      modTake a n t fun k => { k with state := .waiting, waitTimer := some s.takeWait } := by
  let h := toHunt (shifted s l sh) l
  have unpassed' : (afterSubstitute h n t k v cl).slots[n].passed[t] = false := by
    rw [afterSubstitute_slots, modAt_same, Slot.substituted_passed]
    exact unpassed
  have blocked' : ∃ j : TakeNo, j < t ∧ cleared (afterSubstitute h n t k v cl).slots[n] j = false := by
    obtain ⟨j, below, notCleared⟩ := blocked
    exact ⟨j, below, (cleared_afterSubstitute (s := h) below).trans notCleared⟩
  rw [takeEnds_gated (s := h) take sub unreleased, gate_waits unpassed' blocked' waits, ← after,
    ← rested_afterSubstitute service]
  rfl

end Close

theorem Take.extended_substitute {k : Take} {w : Version} {cl : Class} (sub : k.replacement = some (w, cl)) (z : Text) :
    k.extended z = { k with replacement := some ({ w with text := w.text ++ z }, cl) } := by
  simp only [Take.extended, withFilling, fillingVersion, sub]

theorem Take.extendedInto_substitute {k : Take} {w : Version} {cl : Class} (sub : k.replacement = some (w, cl))
    (b : BlockNo) (z : Text) : k.extendedInto b z =
      { k with replacement := some ({ w with blocks := w.blocks ++ [b], text := w.text ++ z }, cl) } := by
  simp only [Take.extendedInto, withFilling, fillingVersion, sub]

/-- R27: at most two slashes are passed on with a character. -/
theorem passedText_short (f : Framer) (h : House) : (passedText f h).length ≤ 64 := by
  have held := f.held.isLt
  rw [passedText, List.length_append, heldSlashes, List.length_replicate, List.length_singleton]
  omega

theorem passedText_nonempty (f : Framer) (h : House) : passedText f h ≠ [] :=
  List.append_ne_nil_of_right_ne_nil _ (List.cons_ne_nil _ _)

/-- Settles O16: the header's end, text written to the replacement version, and the closing mark. -/
theorem substitutesReplaceTheText : Obligations.SubstitutesReplaceTheText := by
  unfold Obligations.SubstitutesReplaceTheText
  refine ⟨?_, ?_, ?_⟩
  · intro s l v sh d n k arrived header kind reads sub found inOrder take stored
    have stored' : storedTake k = true := by
      obtain state | state := stored <;> simp [storedTake, state]
    rw [exec_headerEnd arrived header,
      rested_opensSubstitute (inService_of_arrives arrived) kind reads sub found inOrder take stored']
    rfl
  · rintro s l v h sh n t k w cl arrived body takeRef text take filling sub z used rfl rfl f rfl
    have version : fillingVersion k = w := by simp only [fillingVersion, sub]
    refine ⟨fun started room => ?_, fun b begins free => ?_⟩
    · have extended := Take.extended_substitute sub (passedText s.lines[l].framer h)
      have written (u : State) (slots : u.slots = s.slots) : writeText u n t (passedText s.lines[l].framer h) = _ :=
        writeText_extends _ ((takeAt_of_slots slots n t).trans take) filling
          (Or.inr (by rw [version]; exact ⟨started, room⟩))
      rw [exec_copyBody_text arrived body takeRef text written, extended]
      rfl
    · have extended := Take.extendedInto_substitute sub b (passedText s.lines[l].framer h)
      have written (u : State) (slots : u.slots = s.slots) : writeText u n t (passedText s.lines[l].framer h) = _ :=
        writeText_begins _ ((takeAt_of_slots slots n t).trans take) filling (passedText_short _ _)
          (passedText_nonempty _ _) (by rw [version]; exact begins) (by rw [slots]; exact free)
      rw [exec_copyBody_text arrived body takeRef text written, extended]
      rfl
  · rintro s l v sh n t k w cl arrived body takeRef full take sub a after
    have service := inService_of_arrives arrived
    rw [exec_copyClosing arrived body takeRef full]
    refine ⟨fun y g cs r released nothing idle key category routed enough fresh => ?_,
      fun unreleased unpassed blocked waits => ?_⟩
    · have made := rested_released (p := fun x => decide (x = r)) service take sub released nothing idle key category
        after.symm routed enough (decide_eq_true fresh.symm)
      have both := modAt_modAt a.slots n
        (fun x : Slot => { x with takes := modAt x.takes t (Option.map fun k => { k with state := .released }) })
        fun x => { x with pendingCount := x.pendingCount + cs.length }
      exact ⟨_, rfl, made.lines, made.recency, made.freeCount, made.slots.trans both, made.made, made.others⟩
    · rw [rested_waits service take sub unreleased unpassed blocked waits after.symm]
      rfl

end Sys2Proof.Machine

/-! ## Code banks

What the conversions of spec/03_code_banks.md give, clause by clause, and what the requests that load a bank or choose a
line's bank answer (R39 to R56). -/

namespace Sys2Proof.Machine

open Sys2Proof

/-! ### The answer of a request with standing (R167, R170) -/

section Answer

variable {verb : String} {lvl : Nat} {body : State → State × Answer} {ops : List Text} {s t : State} {results : List Text}

theorem runRequest_done (turn : serves s verb lvl ops) (h : body (popLine s) = done t results) :
    runRequest verb (fun _ => lvl) body ops s = .next (replied t (txt verb) .done results) := by
  rw [runRequest_serves (lvl := fun _ => lvl) turn, h, answerWith_done]

theorem runRequest_kept (turn : serves s verb lvl ops) (h : body (popLine s) = kept (popLine s) results) :
    runRequest verb (fun _ => lvl) body ops s = .next (replied (popLine s) (txt verb) .kept results) := by
  rw [runRequest_serves (lvl := fun _ => lvl) turn, h, answerWith_kept]

theorem runRequest_refused {r : Reason} (turn : serves s verb lvl ops) (h : body (popLine s) = refuse (popLine s) r) :
    runRequest verb (fun _ => lvl) body ops s = .next (replied (popLine s) (txt verb) (.refused r) []) := by
  rw [runRequest_serves (lvl := fun _ => lvl) turn, h, answerWith_refuse]

end Answer

/-! ### Inbound conversion (R39, R40, R43) -/

section Inbound

variable {b : Bank} (sh : Shift) (code : LineCode)

/-- R39: a FIVE bank answers from the half that the shift state selects. -/
theorem convertIn_five {e : InEntry} (kind : b.kind = .five)
    (letters : sh = .letters → e = b.inLetters[(Fin.ofNat 32 code.val : Fin 32)])
    (figures : sh = .figures → e = b.inFigures[(Fin.ofNat 32 code.val : Fin 32)]) :
    convertIn b .five sh code = entryOutcome e sh := by
  cases sh with
  | letters => simp only [convertIn, kind, letters rfl]
  | figures => simp only [convertIn, kind, figures rfl]

/-- R40: a SEVEN bank leaves the shift state alone. -/
theorem convertIn_seven (kind : b.kind = .seven) :
    convertIn b .seven sh code = ((entryOutcome b.inSeven[code] sh).1, sh) := by
  simp only [convertIn, kind]

/-- R43: a mismatched line gives SUB. -/
theorem convertIn_mismatched {w : Width} (mismatch : kindMatches w b.kind = false) :
    convertIn b w sh code = (some houseSUB, sh) := by
  unfold convertIn
  split
  · next kind => simp [kindMatches, kind] at mismatch
  · next kind => simp [kindMatches, kind] at mismatch
  · rfl

end Inbound

/-- R39: the framer is handed nothing by a code that yields no house character. -/
theorem goodCharacter_none {between : State → State} {s : State} {l : LineNo} {code : LineCode} {sh : Shift}
    (converts : convertIn s.banks[s.lines[l].desc.bank] s.lines[l].desc.width s.lines[l].shift code = (none, sh)) :
    goodCharacter between s l code = rested (shifted s l sh) l := by
  simp only [goodCharacter, receiveCode, converts, reloadSilence, rested, shifted, modLine_modLine]

/-- R8, R12: a line in service whose shift state alone has changed, at rest. -/
theorem rested_shifted {s : State} {l : LineNo} (sh : Shift) (service : lineInService s.lines[l] = true) :
    rested (shifted s l sh) l = withLine s l sh s.lines[l].framer s.lines[l].counters := by
  have unchanged : modLine (shifted s l sh) l id = shifted s l sh := by
    simp only [shifted, modLine_modLine, id_eq]
  have same := rested_modLine (sh := sh) (f := s.lines[l].framer) (k := s.lines[l].counters) (g := id) service rfl
  rwa [unchanged] at same

/-- Settles O8: the entry that the bank holds for the code decides the conversion, and a code that gives nothing leaves the
line at rest with its new shift state. -/
theorem inboundConversionFollowsTheBank : Obligations.InboundConversionFollowsTheBank := by
  unfold Obligations.InboundConversionFollowsTheBank
  refine ⟨fun b sh code => ⟨?_, ?_, ?_, ?_⟩, ?_⟩
  · intro five _ e letters figures
    rw [convertIn_five sh code five letters figures]
    cases e <;> rfl
  · intro seven
    refine ⟨fun h entry => ?_, fun entry => ?_⟩
    · rw [convertIn_seven sh code seven, entry]
      rfl
    · rw [convertIn_seven sh code seven, entry]
      rfl
  · intro seven
    exact convertIn_mismatched sh code (by rw [seven]; rfl)
  · intro five
    exact convertIn_mismatched sh code (by rw [five]; rfl)
  · intro s l v sh arrived
    have service := inService_of_arrives arrived
    obtain ⟨high, can, converts⟩ := arrived
    show runEvent (characterArrives l v true) s = _
    rw [runEvent_high high]
    simp only [characterArrives, can, if_true, goodCharacter_none converts, rested_shifted sh service]

/-! ### Outbound conversion (R45, R46, R48) -/

section Outbound

variable {b : Bank} {blf : Belief} (k : LineCode)

theorem convertOut_seven (w : Width) (h : House) (kind : b.kind = .seven) :
    convertOut b w blf h = ((codesTaken b h).map fun c => atWidth w c.code, blf) := by
  simp only [convertOut, kind]

theorem convertOut_five (w : Width) (h : House) (kind : b.kind = .five) :
    convertOut b w blf h =
      ((insertShifts b blf (codesTaken b h)).1.map (atWidth w), (insertShifts b blf (codesTaken b h)).2) := by
  simp only [convertOut, kind]

/-- R46: a code stands bare where its requirement is met. -/
theorem shiftInsert_letters_met (h : blf = .letters) : shiftInsert b blf ⟨k, .letters⟩ = ([k], .letters) := by
  subst h
  rfl

theorem shiftInsert_figures_met (h : blf = .figures) : shiftInsert b blf ⟨k, .figures⟩ = ([k], .figures) := by
  subst h
  rfl

/-- R46: where it is not met the bank's shift code goes before it and settles the belief. -/
theorem shiftInsert_letters_shifted {x : LineCode} (h : blf ≠ .letters) (shift : b.lettersShift = some x) :
    shiftInsert b blf ⟨k, .letters⟩ = ([x, k], .letters) := by
  simp only [shiftInsert, if_neg h, shift]

theorem shiftInsert_figures_shifted {x : LineCode} (h : blf ≠ .figures) (shift : b.figuresShift = some x) :
    shiftInsert b blf ⟨k, .figures⟩ = ([x, k], .figures) := by
  simp only [shiftInsert, if_neg h, shift]

/-- R46: a bank without the shift code sends the code as it is, and the belief stays. -/
theorem shiftInsert_letters_absent (h : blf ≠ .letters) (shift : b.lettersShift = none) :
    shiftInsert b blf ⟨k, .letters⟩ = ([k], blf) := by
  simp only [shiftInsert, if_neg h, shift]

theorem shiftInsert_figures_absent (h : blf ≠ .figures) (shift : b.figuresShift = none) :
    shiftInsert b blf ⟨k, .figures⟩ = ([k], blf) := by
  simp only [shiftInsert, if_neg h, shift]

/-- R46: the codes after the first are tested against the belief that the first has left. -/
theorem insertShifts_cons {c : OutCode} {g : List LineCode} {next : Belief} (h : shiftInsert b blf c = (g, next))
    (cs : List OutCode) :
    insertShifts b blf (c :: cs) = (g ++ (insertShifts b next cs).1, (insertShifts b next cs).2) := by
  simp only [insertShifts, h]

end Outbound

/-- Settles O9: the group is read off the bank's kind, and each clause of the insertion is what `shiftInsert` does with the
first code. -/
theorem outboundConversionInsertsShifts : Obligations.OutboundConversionInsertsShifts := by
  unfold Obligations.OutboundConversionInsertsShifts
  intro b w blf h
  exact
    ⟨convertOut_seven w h, convertOut_five w h, rfl,
      fun _ => insertShifts_cons rfl,
      fun k cs met => insertShifts_cons (shiftInsert_letters_met k met) cs,
      fun k cs met => insertShifts_cons (shiftInsert_figures_met k met) cs,
      fun k cs _ unmet shift => insertShifts_cons (shiftInsert_letters_shifted k unmet shift) cs,
      fun k cs _ unmet shift => insertShifts_cons (shiftInsert_figures_shifted k unmet shift) cs,
      fun k cs unmet shift => insertShifts_cons (shiftInsert_letters_absent k unmet shift) cs,
      fun k cs unmet shift => insertShifts_cons (shiftInsert_figures_absent k unmet shift) cs,
      fun _ => ⟨rfl, rfl⟩⟩

/-! ### Operands of the bank requests (R50, R52 to R55) -/

/-- R50: a bank that is there is judged on. -/
theorem withBank_there {bk : Text} {b : BankNo} (h : bankForm bk = some b.val) (s : State) (f : BankNo → State × Answer) :
    withBank bk s f = f b := by
  simp only [withBank, h, below_val]

theorem codeInRange_above {k : BankKind} {n : Nat} (q : Requirement) (h : codeLimit k < n) :
    codeInRange k (n, q) = none := if_neg (Nat.not_le.mpr h)

theorem codeInRange_within {k : BankKind} {x : LineCode} (q : Requirement) (h : x.val ≤ codeLimit k) :
    codeInRange k (x.val, q) = some ⟨x, q⟩ := by
  simp only [codeInRange, if_pos h, below_val, Option.map_some]

theorem shiftInRange_above {n : Nat} (h : 31 < n) : shiftInRange n = none := if_neg (Nat.not_le.mpr h)

theorem shiftInRange_within {x : LineCode} (h : x.val ≤ 31) : shiftInRange x.val = some x := by
  simp only [shiftInRange, if_pos h, below_val]

/-! ### BANKKIND, BANKSUB and BANKSHIFT (R51, R54, R55) -/

section OneBank

variable {s : State} {bk : Text} {b : BankNo}

theorem bodyBankkind_form {kd : Text} (bank : bankForm bk = some b.val) (h : kindForm kd = none) :
    bodyBankkind [bk, kd] s = refuse s .form := by
  simp only [bodyBankkind, withBank_there bank, h]

theorem bodyBankkind_done {kd : Text} {k : BankKind} (bank : bankForm bk = some b.val) (h : kindForm kd = some k) :
    bodyBankkind [bk, kd] s = done (modBank s b fun _ => Bank.emptied k) [bankTok b, kindTok k] := by
  simp only [bodyBankkind, withBank_there bank, h]

theorem bodyBanksub_form {cd : Text} (bank : bankForm bk = some b.val) (h : outCodeForm s.banks[b].kind cd = none) :
    bodyBanksub [bk, cd] s = refuse s .form := by
  simp only [bodyBanksub, withBank_there bank, h]

theorem bodyBanksub_range {cd : Text} {n : Nat} {q : Requirement} (bank : bankForm bk = some b.val)
    (h : outCodeForm s.banks[b].kind cd = some (n, q)) (above : codeLimit s.banks[b].kind < n) :
    bodyBanksub [bk, cd] s = refuse s .range := by
  simp only [bodyBanksub, withBank_there bank, h, codeInRange_above q above]

theorem bodyBanksub_done {cd : Text} {x : LineCode} {q : Requirement} (bank : bankForm bk = some b.val)
    (h : outCodeForm s.banks[b].kind cd = some (x.val, q)) (within : x.val ≤ codeLimit s.banks[b].kind) :
    bodyBanksub [bk, cd] s = done (modBank s b fun y => { y with sub := some ⟨x, q⟩, loaded := true })
      [bankTok b, outCodeTok s.banks[b].kind ⟨x, q⟩] := by
  simp only [bodyBanksub, withBank_there bank, h, codeInRange_within q within]

/-- R55: a SEVEN bank has no shift codes. -/
theorem bodyBankshift_seven (ops : List Text) (bank : bankForm bk = some b.val) (kind : s.banks[b].kind = .seven) :
    bodyBankshift (bk :: ops) s = refuse s .form := by
  simp only [bodyBankshift, withBank_there bank, kind]

theorem bodyBankshift_form {lt fg : Text} (bank : bankForm bk = some b.val) (kind : s.banks[b].kind = .five)
    (h : number? lt = none ∨ number? fg = none) : bodyBankshift [bk, lt, fg] s = refuse s .form := by
  simp only [bodyBankshift, withBank_there bank, kind]
  split
  · next hm hn => simp [hm, hn] at h
  · rfl

section Typed

variable {lt fg : Text} {m n : Nat} (bank : bankForm bk = some b.val) (kind : s.banks[b].kind = .five)
  (hm : number? lt = some m) (hn : number? fg = some n)

include bank kind hm hn

theorem bodyBankshift_range (above : 31 < m ∨ 31 < n) : bodyBankshift [bk, lt, fg] s = refuse s .range := by
  simp only [bodyBankshift, withBank_there bank, kind, hm, hn]
  split
  · next hx hy =>
    obtain above | above := above
    · rw [shiftInRange_above above] at hx
      cases hx
    · rw [shiftInRange_above above] at hy
      cases hy
  · rfl

theorem bodyBankshift_done {x y : LineCode} (hx : x.val = m) (hy : y.val = n) (first : m ≤ 31) (second : n ≤ 31) :
    bodyBankshift [bk, lt, fg] s =
      done (modBank s b fun k => { k with lettersShift := some x, figuresShift := some y, loaded := true })
        [bankTok b, decimal x, decimal y] := by
  subst hx hy
  simp only [bodyBankshift, withBank_there bank, kind, hm, hn, shiftInRange_within first, shiftInRange_within second]

end Typed

end OneBank

/-- Settles O22: each answer of the three bodies, for a bank that is there, in the order in which they are judged. -/
theorem banksAreEmptiedAndCoded : Obligations.BanksAreEmptiedAndCoded := by
  unfold Obligations.BanksAreEmptiedAndCoded
  intro s bk b bank
  refine ⟨fun kd turn => ⟨fun h => ?_, fun k h => ?_⟩, fun cd turn => ⟨fun h => ?_, fun n q h => ⟨fun above => ?_, ?_⟩⟩,
    fun lt fg turn => ⟨fun h => ?_, fun m n kind hm hn => ⟨fun above => ?_, fun x y hx hy first second => ?_⟩⟩⟩
  · exact runRequest_refused turn (bodyBankkind_form bank h)
  · exact runRequest_done turn (bodyBankkind_done bank h)
  · exact runRequest_refused turn (bodyBanksub_form (s := popLine s) bank h)
  · exact runRequest_refused turn (bodyBanksub_range (s := popLine s) bank h above)
  · rintro x rfl within
    exact runRequest_done turn (bodyBanksub_done (s := popLine s) bank h within)
  · cases kind : s.banks[b].kind with
    | seven => exact runRequest_refused turn (bodyBankshift_seven (s := popLine s) [lt, fg] bank kind)
    | five =>
      have numbers : number? lt = none ∨ number? fg = none := h.resolve_left (by rw [kind]; decide)
      exact runRequest_refused turn (bodyBankshift_form (s := popLine s) bank kind numbers)
  · exact runRequest_refused turn (bodyBankshift_range (s := popLine s) bank kind hm hn above)
  · exact runRequest_done turn (bodyBankshift_done (s := popLine s) bank kind hm hn hx hy first second)

/-! ### Lists of entries as typed (R52, R53) -/

section Forms

variable {α β γ : Type} {f : α → Option β}

theorem forms_cons_eq_some {x : α} {xs : List α} {ys : List β} (h : forms f (x :: xs) = some ys) :
    ∃ y zs, f x = some y ∧ forms f xs = some zs ∧ ys = y :: zs := by
  simp only [forms] at h
  split at h
  · next y zs hy hzs => exact ⟨y, zs, hy, hzs, (Option.some.inj h).symm⟩
  · cases h

theorem forms_length {xs : List α} {ys : List β} (h : forms f xs = some ys) : ys.length = xs.length := by
  induction xs generalizing ys with
  | nil =>
    cases h
    rfl
  | cons x xs ih =>
    obtain ⟨y, zs, -, rest, rfl⟩ := forms_cons_eq_some h
    simp only [List.length_cons, ih rest]

/-- A list read in two passes: what is typed, then its range. -/
theorem forms_bind {g : β → Option γ} {xs : List α} {zs : List γ} (h : forms (fun x => (f x).bind g) xs = some zs) :
    ∃ ys, forms f xs = some ys ∧ forms g ys = some zs := by
  induction xs generalizing zs with
  | nil => exact ⟨[], rfl, h⟩
  | cons x xs ih =>
    obtain ⟨z, rest, both, tail, rfl⟩ := forms_cons_eq_some h
    obtain ⟨y, first, second⟩ := Option.bind_eq_some_iff.mp both
    obtain ⟨ys, typed, ranged⟩ := ih tail
    exact ⟨y :: ys, by simp only [forms, first, typed], by simp only [forms, second, ranged]⟩

end Forms

/-- Consecutive entries stand in the places from `i` on; the places before them and past them are as they were. -/
theorem putFrom_get {α : Type} {n : Nat} (l : List α) (v : Vector α n) (i : Nat) (j : Fin n) :
    (putFrom v i l)[j] = if i ≤ j then (l[j.val - i]?).getD v[j] else v[j] := by
  induction l generalizing v i with
  | nil => simp [putFrom]
  | cons x xs ih =>
    rw [putFrom, ih]
    by_cases here : j.val = i
    · subst here
      simp
    · have kept : (if h : i < n then put v ⟨i, h⟩ x else v)[j] = v[j] := by
        split
        · exact put_other v x fun e => here (congrArg Fin.val e)
        · rfl
      rw [kept]
      by_cases after : i + 1 ≤ j.val
      · have place : j.val - i = (j.val - (i + 1)) + 1 := by omega
        rw [if_pos after, if_pos (by omega), place, List.getElem?_cons_succ]
      · rw [if_neg after, if_neg (by omega)]

theorem putFrom_eq_tabulate {α : Type} {n : Nat} (v : Vector α n) (i : Nat) (l : List α) :
    putFrom v i l = tabulate n fun j => if i ≤ j then (l[j.val - i]?).getD v[j] else v[j] :=
  array_ext fun j => by rw [putFrom_get, tabulate_get]

/-! ### BANKIN and BANKOUT (R52, R53) -/

section Entries

variable {s : State} {bk first : Text} {b : BankNo} {i : Nat} {es : List Text}

/-- R52, R53: one to 32 entries are not refused for their number. -/
theorem entries_countable (one : 1 ≤ es.length) (most : es.length ≤ 32) : ¬(es = [] ∨ 32 < es.length) := by
  rintro (rfl | many)
  · exact absurd one (by decide)
  · omega

section Typed

variable (number : number? first = some i) (one : 1 ≤ es.length) (most : es.length ≤ 32)

include number one most

theorem bankinEntries_done {k : BankKind} {ins : List InEntry} (h : Option Shift) (kind : s.banks[b].kind = k)
    (typed : forms (fun t => (inEntryForm k t).bind entryInRange) es = some ins)
    (within : i + es.length - 1 ≤ codeLimit k) :
    bankinEntries s b h first es = done (modBank s b (writeInbound h i ins))
      ([bankTok b] ++ (h.map halfTok).toList ++ [decimal i, decimal es.length]) := by
  obtain ⟨entries, form, range⟩ := forms_bind typed
  have length : ins.length = es.length := (forms_length range).trans (forms_length form)
  simp only [bankinEntries, if_neg (entries_countable one most), number, kind, form, range, length,
    if_neg (Nat.not_lt.mpr within)]

theorem bodyBankout_done {outs : List (List OutCode)} (bank : bankForm bk = some b.val)
    (typed : forms (fun t => (outEntryForm s.banks[b].kind t).bind (forms (codeInRange s.banks[b].kind))) es = some outs)
    (within : i + es.length - 1 ≤ 127) :
    bodyBankout (bk :: first :: es) s =
      done (modBank s b (writeOutbound i outs)) [bankTok b, decimal i, decimal es.length] := by
  obtain ⟨entries, form, range⟩ := forms_bind typed
  have length : outs.length = es.length := (forms_length range).trans (forms_length form)
  simp only [bodyBankout, withBank_there bank, if_neg (entries_countable one most), number, form, range, length,
    if_neg (Nat.not_lt.mpr within)]

end Typed

theorem bodyBankin_five {hf : Text} {h : Shift} (bank : bankForm bk = some b.val) (kind : s.banks[b].kind = .five)
    (half : halfForm hf = some h) :
    bodyBankin (bk :: hf :: first :: es) s = bankinEntries s b (some h) first es := by
  simp only [bodyBankin, withBank_there bank, kind, half]

theorem bodyBankin_seven (bank : bankForm bk = some b.val) (kind : s.banks[b].kind = .seven) :
    bodyBankin (bk :: first :: es) s = bankinEntries s b none first es := by
  simp only [bodyBankin, withBank_there bank, kind]

end Entries

/-! ### LINEBANK (R56) -/

section Linebank

variable {s : State} {ln bk : Text}

theorem bodyLinebank_form (h : lineForm ln = none ∨ bankForm bk = none) : bodyLinebank [ln, bk] s = refuse s .form := by
  unfold bodyLinebank
  dsimp only
  split
  · next hn hm => simp [hn, hm] at h
  · rfl

theorem bodyLinebank_range {n m : Nat} (line : lineForm ln = some n) (bank : bankForm bk = some m) (h : 24 ≤ n) :
    bodyLinebank [ln, bk] s = refuse s .range := by
  simp only [bodyLinebank, line, bank, below_none h]

theorem bodyLinebank_noBank {l : LineNo} {m : Nat} (line : lineForm ln = some l.val) (bank : bankForm bk = some m)
    (h : 4 ≤ m) : bodyLinebank [ln, bk] s = kept s [bankTok s.lines[l].desc.bank] := by
  simp only [bodyLinebank, line, bank, below_val, below_none h]

theorem bodyLinebank_mismatched {l : LineNo} {b : BankNo} (line : lineForm ln = some l.val)
    (bank : bankForm bk = some b.val) (h : kindMatches s.lines[l].desc.width s.banks[b].kind = false) :
    bodyLinebank [ln, bk] s = kept s [bankTok s.lines[l].desc.bank] := by
  simp only [bodyLinebank, line, bank, below_val, h, Bool.false_eq_true, if_false]

theorem bodyLinebank_done {l : LineNo} {b : BankNo} (line : lineForm ln = some l.val)
    (bank : bankForm bk = some b.val) (h : kindMatches s.lines[l].desc.width s.banks[b].kind = true) :
    bodyLinebank [ln, bk] s = done (modLine s l fun x => { x with desc := { x.desc with bank := b } }) [bankTok b] := by
  simp only [bodyLinebank, line, bank, below_val, h, if_true]

end Linebank

/-- Settles O23: an accepted load writes its entries by `putFrom`, whose places are those of the statement, and LINEBANK
answers in the order of its table. -/
theorem bankEntriesAndLineBanks : Obligations.BankEntriesAndLineBanks := by
  unfold Obligations.BankEntriesAndLineBanks
  refine ⟨fun s bk first b i es bank number one most => ⟨?_, ?_, ?_⟩, fun s ln bk turn => ⟨fun h => ?_, ?_⟩⟩
  · intro hf ins kind turn typed within
    have loads (h : Shift) (half : halfForm hf = some h) :=
      runRequest_done turn ((bodyBankin_five (s := popLine s) bank kind half).trans
        (bankinEntries_done number one most (some h) kind typed within))
    refine ⟨fun half => ?_, fun half => ?_⟩
    · simp only [← putFrom_eq_tabulate]
      exact loads .letters half
    · simp only [← putFrom_eq_tabulate]
      exact loads .figures half
  · intro ins kind turn typed within
    simp only [← putFrom_eq_tabulate]
    exact runRequest_done turn ((bodyBankin_seven (s := popLine s) bank kind).trans
      (bankinEntries_done number one most none kind typed within))
  · intro outs turn typed within
    simp only [← putFrom_eq_tabulate]
    exact runRequest_done turn (bodyBankout_done (s := popLine s) number one most bank typed within)
  · exact runRequest_refused turn (bodyLinebank_form h)
  · intro n m line bank
    refine ⟨fun h => runRequest_refused turn (bodyLinebank_range line bank h), ?_⟩
    rintro l rfl
    refine ⟨fun h => runRequest_kept turn (bodyLinebank_noBank (s := popLine s) line bank h), ?_⟩
    rintro b rfl
    exact ⟨fun h => runRequest_kept turn (bodyLinebank_mismatched (s := popLine s) line bank h),
      fun h => runRequest_done turn (bodyLinebank_done (s := popLine s) line bank h)⟩

end Sys2Proof.Machine
/-! ## The books of the store (O53 to O55)

R62, R76, R59 and R60 of every step. Within a step a record may have left its circuit and not yet have been put down; the
references of such records are the hand. `Books` and `ReaderBooks` count what stands on the circuits together with the hand,
and `Balances` says what an operation does to both and to the blocks. It composes, so each operation is followed once. -/

namespace Sys2Proof.Machine

open Sys2Proof

/-! ### Sums over an array -/

theorem sum_modAt {α M : Type} [AddCommMonoid M] {n : Nat} (v : Vector α n) (i : Fin n) (f : α → α) (g : α → M) :
    (∑ j : Fin n, g (modAt v i f)[j]) + g v[i] = (∑ j : Fin n, g v[j]) + g (f v[i]) := by
  have rest : ∑ j ∈ Finset.univ.erase i, g (modAt v i f)[j] = ∑ j ∈ Finset.univ.erase i, g v[j] :=
    Finset.sum_congr rfl fun j mem => by rw [modAt_other v f (Finset.ne_of_mem_erase mem)]
  rw [← Finset.add_sum_erase _ _ (Finset.mem_univ i), ← Finset.add_sum_erase _ (fun j => g v[j]) (Finset.mem_univ i), rest,
    modAt_same]
  abel

/-! ### The references of records (R62) -/

/-- The references of the records of a list; a detached record has none. -/
def refsOf (l : List Rec) : Multiset RecRef := ↑(l.filterMap Rec.ref)

theorem refsOf_append (l m : List Rec) : refsOf (l ++ m) = refsOf l + refsOf m := by simp [refsOf]

theorem refsOf_cons (r : Rec) (l : List Rec) : refsOf (r :: l) = refsOf [r] + refsOf l := refsOf_append [r] l

@[simp] theorem refsOf_nil : refsOf [] = 0 := rfl

theorem refsOf_perm {l m : List Rec} (h : l.Perm m) : refsOf l = refsOf m := Multiset.coe_eq_coe.mpr (h.filterMap _)

theorem refsOf_named {r : Rec} {f : RecRef} (h : r.ref = some f) : refsOf [r] = {f} := by simp [refsOf, h]

theorem refsOf_detached {r : Rec} (h : r.ref = none) : refsOf [r] = 0 := by simp [refsOf, h]

theorem refsOf_congr {r r' : Rec} (h : r'.ref = r.ref) : refsOf [r'] = refsOf [r] := by
  simp only [refsOf, List.filterMap_cons, h]

theorem refsOf_map {g : Rec → Rec} (h : ∀ r, (g r).ref = r.ref) (l : List Rec) : refsOf (l.map g) = refsOf l := by
  have : Rec.ref ∘ g = Rec.ref := funext h
  rw [refsOf, List.filterMap_map, this, refsOf]

/-- The record a sender carries, if it carries one. -/
def Carried.records : Carried → List Rec
  | .record r => [r]
  | _ => []

/-- The records of a circuit: queued, carried and suspended. -/
def Circuit.records (x : Circuit) : List Rec := x.queue ++ (x.sender.carried.records ++ x.sender.chain)

theorem Circuit.refsOf_records (x : Circuit) :
    refsOf x.records = refsOf x.queue + (refsOf x.sender.carried.records + refsOf x.sender.chain) := by
  rw [Circuit.records, refsOf_append, refsOf_append]

/-- The references of the records that stand on the circuits. -/
def outstanding (s : State) : Multiset RecRef := ∑ c : CircuitNo, refsOf s.circuits[c].records

/-- The record's reference satisfies `q`. -/
def refers (q : RecRef → Bool) (r : Rec) : Bool := r.ref.any q

theorem names_eq (n : SlotNo) : names n = refers fun f => decide (f.slot = n) := by
  funext r
  cases h : r.ref <;> simp [names, refers, h]

theorem reads_eq (n : SlotNo) (t : TakeNo) (v : ReadVersion) :
    reads n t v = refers fun f => decide (f = { slot := n, take := t, version := v }) := by
  funext r
  cases h : r.ref <;> simp [reads, refers, h]

theorem countP_refsOf (q : RecRef → Bool) (l : List Rec) :
    Multiset.countP (fun f => q f = true) (refsOf l) = (l.filter (refers q)).length := by
  induction l with
  | nil => rfl
  | cons r l ih =>
    rw [refsOf_cons, Multiset.countP_add, ih, length_filter_cons, Nat.add_comm]
    cases h : r.ref with
    | none => simp [refers, h, refsOf_detached h]
    | some f => simp [refers, h, refsOf_named h, ← Multiset.cons_zero, Multiset.countP_cons]

theorem carriedCount_eq (p : Rec → Bool) (x : Sender) : carriedCount p x = (x.carried.records.filter p).length := by
  cases h : x.carried with
  | record r => cases hp : p r <;> simp [carriedCount, Carried.records, h, hp]
  | nothing => simp [carriedCount, Carried.records, h]
  | report => simp [carriedCount, Carried.records, h]

theorem recordsOn_eq (q : RecRef → Bool) (x : Circuit) :
    recordsOn (refers q) x = Multiset.countP (fun f => q f = true) (refsOf x.records) := by
  rw [countP_refsOf, recordsOn, carriedCount_eq, Circuit.records, List.filter_append, List.filter_append, List.length_append,
    List.length_append, Nat.add_assoc]

theorem countP_sum {α ι : Type} (p : α → Prop) [DecidablePred p] (a : Finset ι) (f : ι → Multiset α) :
    Multiset.countP p (∑ i ∈ a, f i) = ∑ i ∈ a, Multiset.countP p (f i) :=
  map_sum (Multiset.countPAddMonoidHom p) f a

theorem recordsWhere_eq (q : RecRef → Bool) (s : State) :
    recordsWhere (refers q) s = Multiset.countP (fun f => q f = true) (outstanding s) := by
  rw [recordsWhere, outstanding, countP_sum, Fin.sum_univ_def]
  exact congrArg List.sum (List.map_congr_left fun c _ => recordsOn_eq q s.circuits[c])

/-! ### What the books say -/

/-- A STOPPED, STARTING or PAUSING sender carries nothing (R132). -/
def Circuit.Idle (x : Circuit) : Prop :=
  x.sender.state ≠ .carrying → x.sender.state ≠ .closing → x.sender.carried = .nothing

/-- R62: the pending counts are the numbers of references to the slots, those in hand `h` included. -/
structure Books (h : Multiset RecRef) (s : State) : Prop where
  counts : ∀ n : SlotNo, s.slots[n].pendingCount = (outstanding s + h).countP fun f => f.slot = n
  free : ∀ n : SlotNo, s.slots[n].state = .free → s.slots[n] = Slot.freed
  idle : ∀ c : CircuitNo, s.circuits[c].Idle

theorem pendingSound_iff {s : State} : PendingSound s ↔ Books 0 s := by
  have counts (n : SlotNo) : recordsWhere (names n) s = (outstanding s + 0).countP fun f => f.slot = n := by
    rw [names_eq, recordsWhere_eq, add_zero]
    simp only [decide_eq_true_eq]
  constructor
  · exact fun ⟨a, b, c⟩ => ⟨fun n => (a n).trans (counts n), b, c⟩
  · exact fun ⟨a, b, c⟩ => ⟨fun n => (a n).trans (counts n).symm, b, c⟩

/-- The superseded version of take `t`, with its reader count. -/
def Slot.supersededAt (x : Slot) (t : TakeNo) : Option (Version × Nat) := x.takes[t].bind Take.superseded

/-- A superseded version's reader count; without one there are no readers. -/
def readersTold (o : Option (Version × Nat)) : Nat := (o.map Prod.snd).getD 0

/-- R150, R76: queued records name a current version, and suspended records name a version. -/
structure Circuit.Waits (x : Circuit) : Prop where
  queue : ∀ r ∈ x.queue, ∃ f, r.ref = some f ∧ f.version = .current
  chain : ∀ r ∈ x.sender.chain, r.ref ≠ none

/-- R76: the reader counts are the numbers of references to the superseded versions, those in hand `h` included. -/
structure ReaderBooks (h : Multiset RecRef) (s : State) : Prop where
  counts : ∀ (n : SlotNo) (t : TakeNo),
    readersTold (s.slots[n].supersededAt t) = (outstanding s + h).count { slot := n, take := t, version := .superseded }
  positive : ∀ (n : SlotNo) (t : TakeNo) (v : Version) (m : Nat), s.slots[n].supersededAt t = some (v, m) → 1 ≤ m
  waits : ∀ c : CircuitNo, s.circuits[c].Waits

theorem readersWhere_eq {s : State} (waits : ∀ c : CircuitNo, s.circuits[c].Waits) (n : SlotNo) (t : TakeNo) :
    readersWhere (reads n t .superseded) s =
      (outstanding s + 0).count { slot := n, take := t, version := .superseded } := by
  have queued (c : CircuitNo) : (s.circuits[c].queue.filter (reads n t .superseded)).length = 0 := by
    rw [List.length_eq_zero_iff, List.filter_eq_nil_iff]
    intro r mem reads
    obtain ⟨f, ref, current⟩ := (waits c).queue r mem
    have read := ref.symm.trans (of_decide_eq_true reads)
    rw [Option.some.inj read] at current
    cases current
  have all : readersWhere (reads n t .superseded) s = recordsWhere (reads n t .superseded) s := by
    unfold readersWhere recordsWhere
    refine congrArg List.sum (List.map_congr_left fun c _ => ?_)
    rw [recordsOn, queued, Nat.zero_add]
  rw [all, reads_eq, recordsWhere_eq, add_zero]
  simp only [decide_eq_true_eq]
  rw [Multiset.count]
  simp only [eq_comm]

theorem readersSound_iff {s : State} : ReadersSound s ↔ ReaderBooks 0 s := by
  constructor
  · intro sound
    have waits (c : CircuitNo) : s.circuits[c].Waits := by
      refine ⟨fun r mem => ?_, (sound.named c).2⟩
      obtain ⟨f, ref⟩ := Option.ne_none_iff_exists'.mp ((sound.named c).1 r mem)
      exact ⟨f, ref, sound.queued c r mem f ref⟩
    refine ⟨fun n t => ?_, fun n t v m sup => ?_, waits⟩
    · rw [← readersWhere_eq waits]
      cases take : takeAt s n t with
      | none =>
        have none := sound.none n t fun k present => nomatch take.symm.trans present
        rw [none]
        simp only [Slot.supersededAt, takeAt] at take ⊢
        rw [take]
        rfl
      | some k =>
        have told : s.slots[n].supersededAt t = k.superseded := by
          simp only [Slot.supersededAt, takeAt] at take ⊢
          rw [take]
          rfl
        rw [told]
        cases sup : k.superseded with
        | none =>
          refine (sound.none n t fun k' present => ?_).symm
          obtain rfl : k = k' := Option.some.inj (take.symm.trans present)
          exact sup
        | some r => exact (sound.counts n t k r.1 r.2 take sup).2
    · obtain ⟨k, take, sup⟩ := Option.bind_eq_some_iff.mp sup
      exact (sound.counts n t k v m take sup).1
  · intro books
    have told {n : SlotNo} {t : TakeNo} {k : Take} (take : takeAt s n t = some k) :
        s.slots[n].supersededAt t = k.superseded := by
      unfold takeAt at take
      rw [Slot.supersededAt, take]
      rfl
    refine ⟨fun n t k v m take sup => ?_, fun n t none => ?_, fun c r mem f ref => ?_, fun c => ⟨fun r mem => ?_, (books.waits c).chain⟩⟩
    · have here := (told take).trans sup
      refine ⟨books.positive n t v m here, ?_⟩
      rw [readersWhere_eq books.waits, ← books.counts n t, here]
      rfl
    · rw [readersWhere_eq books.waits, ← books.counts n t]
      cases take : takeAt s n t with
      | none =>
        unfold takeAt at take
        rw [Slot.supersededAt, take]
        rfl
      | some k => rw [told take, none k take]; rfl
    · obtain ⟨g, ref', current⟩ := (books.waits c).queue r mem
      obtain rfl := Option.some.inj (ref.symm.trans ref')
      exact current
    · obtain ⟨g, ref, -⟩ := (books.waits c).queue r mem
      rw [ref]
      exact Option.some_ne_none g

end Sys2Proof.Machine
namespace Sys2Proof.Machine

open Sys2Proof

/-! ### The blocks of a slot (R59, R60) -/

/-- How often a block stands in the versions of a take. -/
def Take.blockCount (b : BlockNo) (k : Take) : Nat := ((versionsOf k).map fun v => v.blocks.count b).sum

/-- The same, of the take that may be present. -/
def blockCount (b : BlockNo) (o : Option Take) : Nat := (o.map (Take.blockCount b)).getD 0

/-- 1 for a block in use. -/
def inUse (m : BitSet 64) (b : BlockNo) : Nat := if m[b] = true then 1 else 0

/-- R60: each version has a block for each 64 characters begun, and a replacement version is being filled. -/
structure Take.Sized (k : Take) : Prop where
  sizes : ∀ v ∈ versionsOf k, v.blocks.length = (v.text.length + 63) / 64
  replacing : k.replacement ≠ none → k.state = .filling ∨ k.state = .cutFilling

/-- R59: each block of the slot stands once in a version if it is in use, and nowhere if it is not. -/
structure Slot.Blocked (x : Slot) : Prop where
  once : ∀ b : BlockNo, ∑ t : TakeNo, blockCount b x.takes[t] = inUse x.blockMap b
  sized : ∀ (t : TakeNo) (k : Take), x.takes[t] = some k → k.Sized

theorem count_blocksOf (x : Slot) (b : BlockNo) : (blocksOf x).count b = ∑ t : TakeNo, blockCount b x.takes[t] := by
  have flat (l : List TakeNo) :
      (((l.filterMap fun t => x.takes[t].map fun k => (t, k)).map fun p =>
        ((versionsOf p.2).map Version.blocks).flatten).flatten).count b = (l.map fun t => blockCount b x.takes[t]).sum := by
    induction l with
    | nil => rfl
    | cons t l ih =>
      cases take : x.takes[t] with
      | none =>
        rw [List.filterMap_cons, take, List.map_cons, List.sum_cons, take]
        exact ih.trans (Nat.zero_add _).symm
      | some k =>
        simp only [List.filterMap_cons, take, Option.map_some, List.map_cons, List.flatten_cons, List.count_append, ih,
          List.sum_cons, blockCount, Option.getD_some, Take.blockCount, List.count_flatten, List.map_map]
        rfl
  rw [Fin.sum_univ_def]
  exact flat (List.finRange 12)

theorem versionsSound_iff {s : State} : VersionsSound s ↔ ∀ n : SlotNo, s.slots[n].Blocked := by
  constructor
  · intro sound n
    refine ⟨fun b => ?_, fun t k take => ⟨sound.sizes n t k take, sound.replacing n t k take⟩⟩
    have used := sound.map n b
    rw [← count_blocksOf, inUse]
    split
    · next yes => exact List.count_eq_one_of_mem (sound.once n) (used.mp yes)
    · next no => exact List.count_eq_zero.mpr fun mem => no (used.mpr mem)
  · intro blocked
    refine ⟨fun n => ?_, fun n b => ?_, fun n t k take => ((blocked n).sized t k take).sizes,
      fun n t k take => ((blocked n).sized t k take).replacing⟩
    · refine List.nodup_iff_count_le_one.mpr fun b => ?_
      rw [count_blocksOf, (blocked n).once b, inUse]
      split <;> omega
    · rw [← List.count_pos_iff, count_blocksOf, (blocked n).once b, inUse]
      split
      · next yes => exact iff_of_true yes Nat.one_pos
      · next no => exact iff_of_false no (Nat.lt_irrefl 0)

theorem Slot.freed_blocked : Slot.freed.Blocked := by
  refine ⟨fun b => ?_, fun t k take => absurd rfl (ne_freed_of_take take)⟩
  simp [Slot.freed, blockCount, inUse, noneOf]

/-- What a slot is besides its takes and its blocks is no part of it. -/
theorem Slot.Blocked.same {x y : Slot} (h : x.Blocked) (takes : y.takes = x.takes) (map : y.blockMap = x.blockMap) :
    y.Blocked := ⟨fun b => by rw [takes, map]; exact h.once b, fun t k take => h.sized t k (takes ▸ take)⟩

/-- A take is written anew. -/
theorem Slot.Blocked.put {x y : Slot} {t : TakeNo} {o : Option Take} (h : x.Blocked) (takes : y.takes = put x.takes t o)
    (once : ∀ b, blockCount b o + inUse x.blockMap b = blockCount b x.takes[t] + inUse y.blockMap b)
    (sized : ∀ k, o = some k → k.Sized) : y.Blocked := by
  refine ⟨fun b => ?_, fun j k take => ?_⟩
  · have sums : (∑ j : TakeNo, blockCount b (Sys2Proof.put x.takes t o)[j]) + blockCount b x.takes[t] =
        (∑ j : TakeNo, blockCount b x.takes[j]) + blockCount b o := sum_modAt x.takes t (fun _ => o) (blockCount b)
    have change := once b
    rw [h.once b] at sums
    rw [takes]
    omega
  · rw [takes] at take
    by_cases e : j = t
    · subst e
      rw [put_same] at take
      exact sized k take
    · rw [put_other _ _ e] at take
      exact h.sized j k take

/-- Blocks that a take gives up are marked free. -/
theorem Slot.Blocked.release {x y : Slot} {t : TakeNo} {k k' : Take} {bs : List BlockNo} (h : x.Blocked)
    (take : x.takes[t] = some k) (takes : y.takes = Sys2Proof.put x.takes t (some k'))
    (map : y.blockMap = freeBlocks x.blockMap bs) (gives : ∀ b, k.blockCount b = k'.blockCount b + bs.count b)
    (sized : k.Sized → k'.Sized) : y.Blocked := by
  refine h.put takes (fun b => ?_) fun j e => Option.some.inj e ▸ sized (h.sized t k take)
  have whole := h.once b
  have part := Finset.single_le_sum (f := fun j : TakeNo => blockCount b x.takes[j]) (fun _ _ => Nat.zero_le _)
    (Finset.mem_univ t)
  have given := gives b
  have freed : inUse y.blockMap b = if b ∈ bs then 0 else inUse x.blockMap b := by
    rw [inUse, map, freeBlocks, tabulate_get]
    by_cases mem : b ∈ bs <;> simp [mem, inUse]
  have one : inUse x.blockMap b ≤ 1 := by unfold inUse; split <;> omega
  simp only [take, blockCount, Option.map_some, Option.getD_some] at part whole ⊢
  rw [freed]
  by_cases mem : b ∈ bs
  · have pos := List.count_pos_iff.mpr mem
    rw [if_pos mem]
    omega
  · have none := List.count_eq_zero.mpr mem
    rw [if_neg mem]
    omega

/-- A take changed in nothing that its blocks or versions are told by. -/
theorem Slot.Blocked.modTake {x : Slot} {t : TakeNo} {f : Take → Take} (h : x.Blocked)
    (blocks : ∀ k b, x.takes[t] = some k → (f k).blockCount b = k.blockCount b)
    (sized : ∀ k, x.takes[t] = some k → k.Sized → (f k).Sized) :
    ({ x with takes := modAt x.takes t (Option.map f) } : Slot).Blocked := by
  refine h.put (y := { x with takes := modAt x.takes t (Option.map f) }) rfl (fun b => ?_) fun k e => ?_
  · cases take : x.takes[t] with
    | none => rfl
    | some k => simp only [Option.map_some, blockCount, Option.getD_some, blocks k b take]
  · obtain ⟨k', take, rfl⟩ := Option.map_eq_some_iff.mp e
    exact sized k' take (h.sized t k' take)

/-! ### What an operation does to the books -/

/-- An operation by which the references in hand become `h` from `g` leaves the books and the blocks right. -/
structure Balances (g : Multiset RecRef) (s : State) (h : Multiset RecRef) (u : State) : Prop where
  books : Books g s → Books h u
  readers : Books g s → ReaderBooks g s → ReaderBooks h u
  blocks : (∀ n : SlotNo, s.slots[n].Blocked) → ∀ n : SlotNo, u.slots[n].Blocked

/-- An operation that takes nothing in hand, and puts nothing down. -/
def Balanced (s u : State) : Prop := ∀ h, Balances h s h u

/-- An operation begun and ended with empty hands. -/
def Closes (s u : State) : Prop := Balances 0 s 0 u

theorem Balances.trans {f g h : Multiset RecRef} {s t u : State} (a : Balances f s g t) (b : Balances g t h u) :
    Balances f s h u :=
  ⟨fun x => b.books (a.books x), fun x y => b.readers (a.books x) (a.readers x y), fun x => b.blocks (a.blocks x)⟩

/-- `trans` with the later change first. -/
theorem Balances.after {f g h : Multiset RecRef} {s t u : State} (b : Balances g t h u) (a : Balances f s g t) :
    Balances f s h u := a.trans b

theorem Balances.refl (h : Multiset RecRef) (s : State) : Balances h s h s := ⟨id, fun _ => id, id⟩

theorem Balanced.refl (s : State) : Balanced s s := fun h => .refl h s

theorem Balanced.trans {s t u : State} (a : Balanced s t) (b : Balanced t u) : Balanced s u := fun h => (a h).trans (b h)

theorem Balanced.after {s t u : State} (b : Balanced t u) (a : Balanced s t) : Balanced s u := a.trans b

theorem Balanced.closes {s u : State} (h : Balanced s u) : Closes s u := h 0

theorem Closes.refl (s : State) : Closes s s := Balances.refl 0 s

theorem Closes.trans {s t u : State} (a : Closes s t) (b : Closes t u) : Closes s u := Balances.trans a b

theorem Closes.after {s t u : State} (b : Closes t u) (a : Closes s t) : Closes s u := a.trans b

theorem foldl_balanced {α : Type} (f : State → α → State) (h : ∀ s a, Balanced s (f s a)) (l : List α) (s : State) :
    Balanced s (l.foldl f s) := foldl_keeps Balanced .refl .trans f h l s

theorem foldl_closes {α : Type} (f : State → α → State) (h : ∀ s a, Closes s (f s a)) (l : List α) (s : State) :
    Closes s (l.foldl f s) := foldl_keeps Closes .refl .trans f h l s

/-! ### Changes of the circuits -/

/-- Circuits change, and what leaves them or comes to them is in hand. -/
theorem Balances.of_circuits {g h : Multiset RecRef} {s u : State} (slots : u.slots = s.slots)
    (refs : Books g s → outstanding u + h = outstanding s + g)
    (idle : ∀ c : CircuitNo, s.circuits[c].Idle → u.circuits[c].Idle)
    (waits : ∀ c : CircuitNo, s.circuits[c].Waits → u.circuits[c].Waits) : Balances g s h u where
  books b := ⟨fun n => by rw [refs b, slots]; exact b.counts n, fun n => by rw [slots]; exact b.free n,
    fun c => idle c (b.idle c)⟩
  readers b r := ⟨fun n t => by rw [refs b, slots]; exact r.counts n t, fun n => by rw [slots]; exact r.positive n,
    fun c => waits c (r.waits c)⟩
  blocks b n := by rw [slots]; exact b n

/-- Neither slots nor circuits change. -/
theorem Balanced.of_eq {s u : State} (slots : u.slots = s.slots) (circuits : u.circuits = s.circuits) : Balanced s u :=
  fun h => .of_circuits slots (fun _ => by simp only [outstanding, circuits]) (fun c => by rw [circuits]; exact id)
    fun c => by rw [circuits]; exact id

/-- One circuit changes. -/
theorem oneCircuit_balances {g h : Multiset RecRef} {c : CircuitNo} {s u : State} (slots : u.slots = s.slots)
    (other : ∀ {d : CircuitNo}, d ≠ c → u.circuits[d] = s.circuits[d])
    (refs : s.circuits[c].Idle → refsOf u.circuits[c].records + h = refsOf s.circuits[c].records + g)
    (idle : s.circuits[c].Idle → u.circuits[c].Idle) (waits : s.circuits[c].Waits → u.circuits[c].Waits) :
    Balances g s h u := by
  have circuits : u.circuits = modAt s.circuits c fun _ => u.circuits[c] := by
    refine array_ext fun d => ?_
    rw [modAt_get]
    split
    · next e => rw [e]
    · next e => exact other e
  have each (P : Circuit → Prop) (h : P s.circuits[c] → P u.circuits[c]) (d : CircuitNo) : P s.circuits[d] → P u.circuits[d] := by
    by_cases e : d = c
    · rw [e]; exact h
    · rw [other e]; exact id
  refine .of_circuits slots (fun books => ?_) (each _ idle) (each _ waits)
  have sums := sum_modAt s.circuits c (fun _ => u.circuits[c]) fun x => refsOf x.records
  rw [← circuits] at sums
  have change := refs (books.idle c)
  apply add_right_cancel (b := refsOf s.circuits[c].records)
  calc outstanding u + h + refsOf s.circuits[c].records
      = (outstanding u + refsOf s.circuits[c].records) + h := by abel
    _ = (outstanding s + refsOf u.circuits[c].records) + h := by rw [outstanding, sums, outstanding]
    _ = outstanding s + (refsOf u.circuits[c].records + h) := by abel
    _ = outstanding s + g + refsOf s.circuits[c].records := by rw [change]; abel

theorem OnlyCircuit.balances {g h : Multiset RecRef} {c : CircuitNo} {s u : State} (only : OnlyCircuit c s u)
    (refs : s.circuits[c].Idle → refsOf u.circuits[c].records + h = refsOf s.circuits[c].records + g)
    (idle : s.circuits[c].Idle → u.circuits[c].Idle) (waits : s.circuits[c].Waits → u.circuits[c].Waits) :
    Balances g s h u := oneCircuit_balances only.slots (fun ne => only.other ne) refs idle waits

/-- The records of a circuit stand where they stood. -/
structure SameTraffic (x y : Circuit) : Prop where
  queue : y.queue = x.queue
  carried : y.sender.carried = x.sender.carried
  chain : y.sender.chain = x.sender.chain
  idle : x.Idle → y.Idle

theorem SameTraffic.refl (x : Circuit) : SameTraffic x x := ⟨rfl, rfl, rfl, id⟩

theorem SameTraffic.refs {x y : Circuit} (h : SameTraffic x y) : refsOf y.records = refsOf x.records := by
  rw [Circuit.records, h.queue, h.carried, h.chain, Circuit.records]

theorem SameTraffic.waits {x y : Circuit} (h : SameTraffic x y) (w : x.Waits) : y.Waits :=
  ⟨h.queue ▸ w.queue, h.chain ▸ w.chain⟩

theorem OnlyCircuit.balanced {c : CircuitNo} {s u : State} (only : OnlyCircuit c s u)
    (same : SameTraffic s.circuits[c] u.circuits[c]) : Balanced s u :=
  fun _ => only.balances (fun _ => by rw [same.refs]) same.idle same.waits

theorem modSender_circuit (s : State) (c : CircuitNo) (f : Sender → Sender) :
    (modSender s c f).circuits[c] = { s.circuits[c] with sender := f s.circuits[c].sender } := modAt_same _ c _

theorem modQueue_circuit (s : State) (c : CircuitNo) (f : List Rec → List Rec) :
    (modQueue s c f).circuits[c] = { s.circuits[c] with queue := f s.circuits[c].queue } := modAt_same _ c _

/-- A sender changed in nothing that its records are told by. -/
theorem modSender_balanced {s : State} {c : CircuitNo} {f : Sender → Sender}
    (carried : (f s.circuits[c].sender).carried = s.circuits[c].sender.carried)
    (chain : (f s.circuits[c].sender).chain = s.circuits[c].sender.chain)
    (idle : s.circuits[c].Idle → ({ s.circuits[c] with sender := f s.circuits[c].sender } : Circuit).Idle) :
    Balanced s (modSender s c f) :=
  (modSender_only s c f).balanced (by rw [modSender_circuit]; exact ⟨rfl, carried, chain, idle⟩)

/-- The same, of a sender that keeps its state. -/
theorem modSender_balanced_state {s : State} {c : CircuitNo} {f : Sender → Sender}
    (state : (f s.circuits[c].sender).state = s.circuits[c].sender.state)
    (carried : (f s.circuits[c].sender).carried = s.circuits[c].sender.carried)
    (chain : (f s.circuits[c].sender).chain = s.circuits[c].sender.chain) : Balanced s (modSender s c f) :=
  modSender_balanced carried chain fun idle a b => carried.trans (idle (state ▸ a) (state ▸ b))

/-! ### Changes of a slot -/

/-- A slot changes, and with it what is in hand of it. -/
theorem modSlot_balances {g h : Multiset RecRef} {s : State} {n : SlotNo} {f : Slot → Slot}
    (others : ∀ (q : RecRef → Prop) [DecidablePred q], (∀ r, q r → r.slot ≠ n) → g.countP q = h.countP q)
    (pending : Books g s → (f s.slots[n]).pendingCount = (outstanding s + h).countP fun r => r.slot = n)
    (free : Books g s → (f s.slots[n]).state = .free → f s.slots[n] = Slot.freed)
    (readers : Books g s → ReaderBooks g s → ∀ t, readersTold ((f s.slots[n]).supersededAt t) =
      (outstanding s + h).count { slot := n, take := t, version := .superseded })
    (positive : Books g s → ReaderBooks g s → ∀ t v m, (f s.slots[n]).supersededAt t = some (v, m) → 1 ≤ m)
    (blocked : s.slots[n].Blocked → (f s.slots[n]).Blocked) : Balances g s h (modSlot s n f) := by
  have here : (modSlot s n f).slots[n] = f s.slots[n] := modAt_same _ n f
  have other {m : SlotNo} (e : m ≠ n) : (modSlot s n f).slots[m] = s.slots[m] := modAt_other _ f e
  refine ⟨fun b => ⟨fun m => ?_, fun m => ?_, b.idle⟩, fun b r => ⟨fun m t => ?_, fun m => ?_, r.waits⟩, fun b m => ?_⟩ <;>
    by_cases e : m = n
  · subst e
    rw [here]
    exact pending b
  · rw [other e, b.counts m, Multiset.countP_add, Multiset.countP_add]
    exact congrArg _ (others _ fun r hr => hr.trans_ne e)
  · subst e
    rw [here]
    exact free b
  · rw [other e]
    exact b.free m
  · subst e
    rw [here]
    exact readers b r t
  · rw [other e, r.counts m t, Multiset.count_add, Multiset.count_add]
    refine congrArg _ (others _ fun f hf => ?_)
    rw [← hf]
    exact e
  · subst e
    rw [here]
    exact positive b r
  · rw [other e]
    exact r.positive m
  · subst e
    rw [here]
    exact blocked (b m)
  · rw [other e]
    exact b m

/-- The story changes, and no record with it. -/
theorem modSlot_balanced {s : State} {n : SlotNo} {f : Slot → Slot}
    (pending : (f s.slots[n]).pendingCount = s.slots[n].pendingCount)
    (free : (s.slots[n].state = .free → s.slots[n] = Slot.freed) → (f s.slots[n]).state = .free → f s.slots[n] = Slot.freed)
    (superseded : ∀ t, (f s.slots[n]).supersededAt t = s.slots[n].supersededAt t)
    (blocked : s.slots[n].Blocked → (f s.slots[n]).Blocked) : Balanced s (modSlot s n f) := by
  refine fun h => modSlot_balances (fun _ _ _ => rfl) (fun b => pending.trans (b.counts n)) (fun b => free (b.free n))
    (fun _ r t => ?_) (fun _ r t => ?_) blocked
  · rw [superseded]
    exact r.counts n t
  · rw [superseded]
    exact r.positive n t

end Sys2Proof.Machine
/-! ## The books of the senders (O53 to O55)

What each operation of a sender, of a report and of a record's return does to the books. -/
namespace Sys2Proof.Machine

open Sys2Proof

/-! ### Senders and their records (R119 to R122, R133 to R137) -/

theorem takeNext_balanced (s : State) (c : CircuitNo) : Balanced s (takeNext s c) := by
  obtain ⟨y, taken, circuit⟩ := takeNext_circuit s c
  refine (takeNext_only s c).balanced ?_
  rw [circuit]
  have carried : y.carried = s.circuits[c].sender.carried := (congrArg Sender.carried taken :)
  have state : y.state = s.circuits[c].sender.state := (congrArg Sender.state taken :)
  exact ⟨rfl, carried, (congrArg Sender.chain taken :), fun idle a b => carried.trans (idle (state ▸ a) (state ▸ b))⟩

theorem refsOf_withoutAt {q : List Rec} {i : Nat} {r : Rec} (h : q[i]? = some r) :
    refsOf q = refsOf [r] + refsOf (withoutAt q i) := by
  obtain ⟨bound, rfl⟩ := List.getElem?_eq_some_iff.mp h
  rw [← refsOf_cons]
  exact (refsOf_perm (List.getElem_cons_eraseIdx_perm bound)).symm

theorem mem_withoutAt {α : Type} {q : List α} {i : Nat} {r : α} (h : r ∈ withoutAt q i) : r ∈ q := List.mem_of_mem_eraseIdx h

theorem idle_of_carrying {x : Circuit} (h : x.sender.state = .carrying) : x.Idle := fun a => absurd h a

theorem idle_of_nothing {x : Circuit} (h : x.sender.carried = .nothing) : x.Idle := fun _ _ => h

section Begun

variable {m : State} {c : CircuitNo} {x y : Circuit} {motor : Bool}

/-- What is begun was queued or suspended, or is no record. -/
theorem Begun.refs (begun : Begun m c motor x y) (nothing : x.sender.carried.records = []) :
    refsOf y.records = refsOf x.records := by
  have took := begun.took
  rw [Circuit.refsOf_records, Circuit.refsOf_records, nothing]
  cases chosen : choose m c with
  | nothing => simp only [TookUp, chosen] at took
  | report =>
    simp only [TookUp, chosen] at took
    obtain ⟨carried, -, queue, chain⟩ := took
    rw [carried, queue, chain]
    rfl
  | start i =>
    simp only [TookUp, chosen] at took
    obtain ⟨r, queued, carried, queue, chain⟩ := took
    rw [carried, queue, chain, refsOf_withoutAt queued, Carried.records, withoutAt, refsOf_nil]
    abel
  | resume r =>
    simp only [TookUp, chosen] at took
    obtain ⟨carried, queue, chain⟩ := took
    rw [carried, queue, chain, refsOf_append, Carried.records, refsOf_nil]
    abel

theorem Begun.waits (begun : Begun m c motor x y) (w : x.Waits) : y.Waits := by
  have took := begun.took
  cases chosen : choose m c with
  | nothing => simp only [TookUp, chosen] at took
  | report =>
    simp only [TookUp, chosen] at took
    obtain ⟨-, -, queue, chain⟩ := took
    exact ⟨queue ▸ w.queue, chain ▸ w.chain⟩
  | start i =>
    simp only [TookUp, chosen] at took
    obtain ⟨r, -, -, queue, chain⟩ := took
    exact ⟨fun r mem => w.queue r (mem_withoutAt (queue ▸ mem)), chain ▸ w.chain⟩
  | resume r =>
    simp only [TookUp, chosen] at took
    obtain ⟨-, queue, chain⟩ := took
    exact ⟨queue ▸ w.queue, fun r mem => w.chain r (by rw [chain]; exact List.mem_append_left _ mem)⟩

theorem Begun.idle (begun : Begun m c motor x y) : y.Idle := idle_of_carrying begun.carrying

end Begun

/-- A sender that carries no record is emptied. -/
theorem modSender_emptied {s : State} {c : CircuitNo} {f : Sender → Sender}
    (none : s.circuits[c].Idle → s.circuits[c].sender.carried.records = [])
    (nothing : (f s.circuits[c].sender).carried = .nothing)
    (chain : (f s.circuits[c].sender).chain = s.circuits[c].sender.chain) : Balanced s (modSender s c f) := by
  refine fun g => (modSender_only s c f).balances (fun idle => ?_) (fun _ => ?_) fun w => ?_ <;> rw [modSender_circuit]
  · simp only [Circuit.records, nothing, chain, none idle]
    rfl
  · exact idle_of_nothing nothing
  · exact ⟨w.queue, by simp only [chain]; exact w.chain⟩

/-- The record that a sender carried is in hand. -/
theorem modSender_bared {s : State} {c : CircuitNo} {f : Sender → Sender} {r : Rec}
    (carried : s.circuits[c].sender.carried = .record r) (nothing : (f s.circuits[c].sender).carried = .nothing)
    (chain : (f s.circuits[c].sender).chain = s.circuits[c].sender.chain) (g : Multiset RecRef) :
    Balances g s (refsOf [r] + g) (modSender s c f) := by
  refine (modSender_only s c f).balances (fun _ => ?_) (fun _ => ?_) fun w => ?_ <;> rw [modSender_circuit]
  · simp only [Circuit.refsOf_records, nothing, chain, carried, Carried.records, refsOf_nil]
    abel
  · exact idle_of_nothing nothing
  · exact ⟨w.queue, by simp only [chain]; exact w.chain⟩

theorem enterPausing_balanced {s : State} {c : CircuitNo}
    (none : s.circuits[c].Idle → s.circuits[c].sender.carried.records = []) : Balanced s (enterPausing s c) := by
  unfold enterPausing
  dsimp only
  split
  · exact modSender_emptied none rfl rfl
  · exact modSender_emptied none rfl rfl

/-- R122, R135: a selection of a sender that carries no record. -/
theorem select_balanced {s : State} {c : CircuitNo}
    (none : s.circuits[c].Idle → s.circuits[c].sender.carried.records = []) : Balanced s (select s c) := by
  by_cases work : hasWork s c = true
  · have begun := select_begun work
    exact fun g => (select_only s c).balances (fun idle => by rw [begun.refs (none idle)]) (fun _ => begun.idle) begun.waits
  · have chosen : choose s c = .nothing := by simpa [hasWork] using work
    simp only [select, chosen]
    split
    · exact .refl s
    · exact enterPausing_balanced none

theorem idle_pausing {x : Circuit} (state : x.sender.state = .stopped ∨ x.sender.state = .starting ∨ x.sender.state = .pausing)
    (idle : x.Idle) : x.sender.carried.records = [] := by
  have nothing : x.sender.carried = .nothing := by
    obtain state | state | state := state <;> exact idle (by rw [state]; decide) (by rw [state]; decide)
  rw [nothing]
  rfl

theorem enterStarting_balanced {s : State} {c : CircuitNo} (stopped : s.circuits[c].sender.state = .stopped) :
    Balanced s (enterStarting s c) := by
  let f : Sender → Sender := fun x =>
    { x with state := .starting, motor := true, belief := .unknown, motorTimer := some s.circuits[c].desc.motorDelay }
  have started : Balanced s (modSender s c f) :=
    modSender_balanced rfl rfl fun idle _ _ => idle (by rw [stopped]; decide) (by rw [stopped]; decide)
  unfold enterStarting
  dsimp only
  split
  · have timed : Balanced (modSender s c f) (modSender (modSender s c f) c fun x => { x with motorTimer := none }) :=
      modSender_balanced_state rfl rfl rfl
    refine (select_balanced (idle_pausing (Or.inr (Or.inl ?_)))).after (timed.after started)
    rw [modSender_circuit, modSender_circuit]
  · exact started

theorem workTest_balanced (s : State) (c : CircuitNo) : Balanced s (workTest s c) := by
  unfold workTest
  split
  · next h => exact enterStarting_balanced h.1
  · exact .refl s

theorem offer_balanced (s : State) (c : CircuitNo) : Balanced s (offer s c) := by
  unfold offer
  split
  · exact workTest_balanced s c
  · next pausing => exact select_balanced (idle_pausing (Or.inr (Or.inr pausing)))
  · exact .refl s

theorem motorReady_balanced (c : CircuitNo) (s : State) : Balanced s (motorReady c s) := by
  unfold motorReady
  split
  · next starting =>
    have timed : Balanced s (modSender s c fun x => { x with motorTimer := none }) := modSender_balanced_state rfl rfl rfl
    refine (select_balanced (idle_pausing (Or.inr (Or.inl ?_)))).after timed
    rw [modSender_circuit]
    exact starting
  · exact .refl s

theorem tellJoined_balanced (s : State) (c : CircuitNo) (x : Class) : Balanced s (tellJoined s c x) := by
  unfold tellJoined
  split
  · unfold breakIfPending
    split
    · split
      · exact modSender_balanced_state rfl rfl rfl
      · exact .refl s
    · exact .refl s
  · exact offer_balanced s c

/-- A record that names a current version joins a queue. -/
theorem modQueue_joins {s : State} {c : CircuitNo} {f : List Rec → List Rec} {r : Rec} {a : RecRef} (ref : r.ref = some a)
    (current : a.version = .current) (joins : (f s.circuits[c].queue).Perm (r :: s.circuits[c].queue)) (g : Multiset RecRef) :
    Balances (refsOf [r] + g) s g (modQueue s c f) := by
  refine (modQueue_only s c f).balances (fun _ => ?_) (fun idle => ?_) fun w => ?_ <;> rw [modQueue_circuit]
  · rw [Circuit.refsOf_records, Circuit.refsOf_records]
    dsimp only
    rw [refsOf_perm joins, refsOf_cons]
    abel
  · exact idle
  · refine ⟨fun x mem => ?_, w.chain⟩
    obtain rfl | mem := List.mem_cons.mp (joins.mem_iff.mp mem)
    · exact ⟨a, ref, current⟩
    · exact w.queue x mem

theorem joinQueue_balances {s : State} {c : CircuitNo} {r : Rec} {a : RecRef} (ref : r.ref = some a)
    (current : a.version = .current) (g : Multiset RecRef) : Balances (refsOf [r] + g) s g (joinQueue s c r) :=
  (tellJoined_balanced _ c _ g).after (modQueue_joins ref current (List.perm_append_singleton _ _) g)

/-- A queued record leaves its queue. -/
theorem modQueue_leaves {s : State} {c : CircuitNo} {i : Nat} {r : Rec} (queued : s.circuits[c].queue[i]? = some r)
    (g : Multiset RecRef) : Balances g s (refsOf [r] + g) (modQueue s c fun q => withoutAt q i) := by
  refine (modQueue_only s c _).balances (fun _ => ?_) (fun idle => ?_) fun w => ?_ <;> rw [modQueue_circuit]
  · simp only [Circuit.refsOf_records, refsOf_withoutAt queued]
    abel
  · exact idle
  · exact ⟨fun x mem => w.queue x (mem_withoutAt mem), w.chain⟩

theorem tellWithheldMore_balanced (s : State) (c : CircuitNo) : Balanced s (tellWithheldMore s c) := by
  unfold tellWithheldMore
  split
  · next starting =>
    split
    · exact .refl s
    · exact modSender_emptied (idle_pausing (Or.inr (Or.inl starting))) rfl rfl
  · split
    · exact .refl s
    · exact modSender_balanced rfl rfl fun _ _ b => absurd rfl b
  · exact .refl s

theorem tellDegree_balanced (m : Mode) (s : State) (c : CircuitNo) : Balanced s (tellDegree m s c) := by
  unfold tellDegree
  dsimp only
  split
  · exact tellWithheldMore_balanced s c
  · split
    · exact offer_balanced s c
    · exact .refl s

/-! ### Reports and the latch -/

theorem modEntry_balanced (s : State) (k : EventKind) (f : LatchEntry → LatchEntry) : Balanced s (modEntry s k f) :=
  .of_eq rfl rfl

theorem modMgmt_balanced (s : State) (f : Mgmt → Mgmt) : Balanced s (modMgmt s f) := .of_eq rfl rfl

theorem modLine_balanced (s : State) (l : LineNo) (f : Line → Line) : Balanced s (modLine s l f) := .of_eq rfl rfl

theorem pushReport_balanced (s : State) (t : Text) : Balanced s (pushReport s t) :=
  (offer_balanced _ _).after (modMgmt_balanced s _)

theorem alertDue_balanced (s : State) (k : EventKind) : Balanced s (alertDue s k) := by
  unfold alertDue
  split
  · exact pushReport_balanced s _
  · exact modEntry_balanced s k _

theorem raise_balanced (s : State) (k : EventKind) (d : Detail) : Balanced s (raise s k d) := by
  unfold raise
  dsimp only
  split
  · exact modEntry_balanced s k _
  · split
    · exact (alertDue_balanced _ k).after (modEntry_balanced s k _)
    · exact modEntry_balanced s k _

theorem placeReply_balanced (s : State) (t : Text) : Balanced s (placeReply s t) := by
  unfold placeReply
  split
  · exact pushReport_balanced s t
  · exact raise_balanced s _ _

theorem payOwed_balanced (s : State) (k : EventKind) : Balanced s (payOwed s k) := by
  unfold payOwed
  split
  · exact (pushReport_balanced _ _).after (modEntry_balanced s k _)
  · exact .refl s

theorem reportLeaves_balanced (s : State) : Balanced s (reportLeaves s) :=
  (foldl_balanced payOwed payOwed_balanced allKinds _).after (modMgmt_balanced s _)

/-! ### A record returned (R62, R76, R124) -/

/-- The superseded version, one reader less. -/
def oneReaderLess (o : Option (Version × Nat)) : Option (Version × Nat) :=
  o.bind fun p => if p.2 ≤ 1 then none else some (p.1, p.2 - 1)

theorem readersTold_oneReaderLess (o : Option (Version × Nat)) : readersTold (oneReaderLess o) = readersTold o - 1 := by
  cases o with
  | none => rfl
  | some p => 
    unfold oneReaderLess readersTold
    by_cases last : p.2 ≤ 1
    · simp [last]
    · simp [last]

theorem supersededAt_put (x : Slot) (t j : TakeNo) (o : Option Take) (m : BitSet 64) :
    ({ x with takes := put x.takes t o, blockMap := m } : Slot).supersededAt j =
      if j = t then o.bind Take.superseded else x.supersededAt j := by
  unfold Slot.supersededAt
  by_cases e : j = t
  · subst e
    simp only [put_same, if_true]
  · simp only [put_other _ _ e, if_neg e]

theorem supersededAt_dropReader (x : Slot) (t j : TakeNo) :
    (dropReader x t).supersededAt j = if j = t then oneReaderLess (x.supersededAt t) else x.supersededAt j := by
  have unchanged (h : oneReaderLess (x.supersededAt t) = x.supersededAt t) :
      x.supersededAt j = if j = t then oneReaderLess (x.supersededAt t) else x.supersededAt j := by
    split
    · next e => rw [h, e]
    · rfl
  unfold dropReader
  split
  · next none => exact unchanged (by simp only [Slot.supersededAt, none]; rfl)
  · next k take =>
    have told : x.supersededAt t = k.superseded := by simp only [Slot.supersededAt, take]; rfl
    split
    · next none => exact unchanged (by rw [told, none]; rfl)
    · next v m sup =>
      rw [told, sup]
      split
      · next last =>
        rw [supersededAt_put]
        simp [oneReaderLess, last]
      · next more =>
        refine (supersededAt_put x t j _ x.blockMap).trans ?_
        simp [oneReaderLess, more]

theorem Take.blockCount_superseded (k : Take) (b : BlockNo) (o : Option (Version × Nat)) :
    ({ k with superseded := o } : Take).blockCount b =
      ({ k with superseded := none } : Take).blockCount b + ((o.map fun p => p.1.blocks).getD []).count b := by
  cases o with
  | none => rfl
  | some p =>
    simp only [Take.blockCount, versionsOf, Option.map_some, Option.map_none, Option.toList_some, Option.toList_none,
      List.map_cons, List.map_append, List.map_nil, List.sum_cons, List.sum_append, List.sum_nil, Option.getD_some]
    omega

theorem Take.Sized.superseded {k : Take} (h : k.Sized) {o : Option (Version × Nat)}
    (fewer : ∀ p, o = some p → ∃ m, k.superseded = some (p.1, m)) : ({ k with superseded := o } : Take).Sized := by
  refine ⟨fun v mem => h.sizes v ?_, h.replacing⟩
  unfold versionsOf at mem ⊢
  rw [List.mem_cons, List.mem_append] at mem ⊢
  refine mem.imp_right fun mem => mem.imp_right fun mem => ?_
  cases o with
  | none => cases mem
  | some p =>
    obtain ⟨m, sup⟩ := fewer p rfl
    rw [sup]
    exact mem

theorem dropReader_blocked {x : Slot} (h : x.Blocked) (t : TakeNo) : (dropReader x t).Blocked := by
  unfold dropReader
  split
  · exact h
  · next k take =>
    split
    · exact h
    · next v m sup =>
      have self : k = { k with superseded := some (v, m) } := by rw [← sup]
      split
      · refine h.release (k := k) (k' := { k with superseded := none }) take rfl rfl (fun b => ?_) fun sized => ?_
        · conv_lhs => rw [self]
          exact k.blockCount_superseded b (some (v, m))
        · exact sized.superseded fun _ e => nomatch e
      · refine h.put (y := { x with takes := put x.takes t (some { k with superseded := some (v, m - 1) }) }) rfl (fun b => ?_)
          fun j e => ?_
        · have same : k.blockCount b = ({ k with superseded := some (v, m - 1) } : Take).blockCount b := by
            conv_lhs => rw [self]
            rw [k.blockCount_superseded, k.blockCount_superseded b (some (v, m - 1))]
            rfl
          simp only [take, blockCount, Option.map_some, Option.getD_some, same]
        · obtain rfl := Option.some.inj e
          refine (h.sized t k take).superseded fun p e => ⟨m, ?_⟩
          obtain rfl := Option.some.inj e
          exact sup

/-- The slot without the reader of a superseded version, if the reference is one. -/
def readerLeft (f : RecRef) (x : Slot) : Slot :=
  match f.version with
  | .current => x
  | .superseded => dropReader x f.take

/-- What a record's leaving does to the slot. -/
theorem unname_eq (x : Slot) (f : RecRef) :
    unname x f = { readerLeft f x with pendingCount := x.pendingCount - 1 } := by
  cases version : f.version with
  | current => simp only [unname, readerLeft, version]
  | superseded => simp only [unname, readerLeft, version, dropReader_pendingCount]

theorem supersededAt_unname (x : Slot) (f : RecRef) (t : TakeNo) : (unname x f).supersededAt t =
    if f.version = .superseded ∧ t = f.take then oneReaderLess (x.supersededAt t) else x.supersededAt t := by
  have told : (unname x f).supersededAt t = (readerLeft f x).supersededAt t := by rw [unname_eq]; rfl
  rw [told]
  cases version : f.version with
  | current => simp [readerLeft, version]
  | superseded =>
    simp only [readerLeft, version, supersededAt_dropReader, true_and]
    split
    · next e => rw [e]
    · rfl

theorem unname_blocked {x : Slot} (h : x.Blocked) (f : RecRef) : (unname x f).Blocked := by
  have left : (readerLeft f x).Blocked := by
    unfold readerLeft
    split
    · exact h
    · exact dropReader_blocked h f.take
  rw [unname_eq]
  exact left.same rfl rfl

theorem dropReader_state (x : Slot) (t : TakeNo) : (dropReader x t).state = x.state :=
  (congrArg Slot.state (slotCore_dropReader x t) :)

theorem unname_state (x : Slot) (f : RecRef) : (unname x f).state = x.state :=
  (congrArg Slot.state (slotCore_unname x f) :)

theorem unname_pendingCount (x : Slot) (f : RecRef) : (unname x f).pendingCount = x.pendingCount - 1 := by
  rw [unname_eq]

theorem oneReaderLess_positive {o : Option (Version × Nat)} {v : Version} {m : Nat} (h : oneReaderLess o = some (v, m)) :
    1 ≤ m := by
  obtain ⟨p, -, h⟩ := Option.bind_eq_some_iff.mp h
  split at h
  · cases h
  · cases h
    omega

theorem unnameIn_balances (s : State) (r : Rec) (g : Multiset RecRef) :
    Balances (refsOf [r] + g) s g (unnameIn s r.ref) := by
  cases ref : r.ref with
  | none =>
    rw [refsOf_detached ref, zero_add]
    exact .refl g s
  | some f =>
    rw [refsOf_named ref]
    have told (h : Multiset RecRef) : outstanding s + ({f} + h) = {f} + (outstanding s + h) := by abel
    refine modSlot_balances (fun q _ away => ?_) (fun b => ?_) (fun b free => ?_) (fun _ readers t => ?_)
      (fun _ readers t v m => ?_) fun h => unname_blocked h f
    · have not : ¬ q f := fun h => away f h rfl
      rw [Multiset.countP_add, ← Multiset.cons_zero, Multiset.countP_cons_of_neg _ not]
      simp
    · rw [unname_pendingCount, b.counts f.slot, told, Multiset.singleton_add, Multiset.countP_cons_of_pos _ (by rfl)]
      rfl
    · rw [unname_state] at free
      rw [b.free _ free]
      exact unname_freed f
    · have before := readers.counts f.slot t
      rw [told, Multiset.singleton_add, Multiset.count_cons] at before
      rw [supersededAt_unname]
      split
      · next here =>
        have same : ({ slot := f.slot, take := t, version := .superseded } : RecRef) = f := by rw [here.2, ← here.1]
        rw [if_pos same] at before
        rw [readersTold_oneReaderLess]
        omega
      · next elsewhere =>
        rw [before, if_neg, Nat.add_zero]
        rintro same
        exact elsewhere ⟨(congrArg RecRef.version same).symm, congrArg RecRef.take same⟩
    · rw [supersededAt_unname]
      split
      · exact oneReaderLess_positive
      · exact readers.positive f.slot t v m

theorem freeCount_balanced (s : State) (k : Nat) : Balanced s { s with freeCount := k } := .of_eq rfl rfl

/-- R124. -/
theorem returnRecord_balances (s : State) (r : Rec) (g : Multiset RecRef) :
    Balances (refsOf [r] + g) s g (returnRecord s r) :=
  (unnameIn_balances { s with freeCount := s.freeCount + 1 } r g).after (freeCount_balanced s _ _)

theorem returnRecords_balances (rs : List Rec) (s : State) (g : Multiset RecRef) :
    Balances (refsOf rs + g) s g (returnRecords s rs) := by
  induction rs generalizing s with
  | nil =>
    rw [refsOf_nil, zero_add]
    exact .refl g s
  | cons r rs ih =>
    have first := returnRecord_balances s r (refsOf rs + g)
    rw [← add_assoc, ← refsOf_cons] at first
    exact (ih (returnRecord s r)).after first

end Sys2Proof.Machine
namespace Sys2Proof.Machine

open Sys2Proof

/-! ### A character sent (R123, R137, R143 to R152) -/

theorem unnameIn_circuits (s : State) (ref : Option RecRef) : (unnameIn s ref).circuits = s.circuits := by
  cases ref <;> rfl

theorem returnRecord_circuits (s : State) (r : Rec) : (returnRecord s r).circuits = s.circuits := unnameIn_circuits _ r.ref

theorem returnRecord_sender (s : State) (c : CircuitNo) (r : Rec) :
    (returnRecord s r).circuits[c].sender = s.circuits[c].sender :=
  congrArg (fun v : Vector Circuit 16 => v[c].sender) (returnRecord_circuits s r)

theorem startCut_balanced (s : State) (c : CircuitNo) : Balanced s (startCut s c) :=
  (takeNext_balanced _ c).after (modSender_balanced_state rfl rfl rfl)

/-- R124, R143, R150: the record carried is returned to the pool, and the sender selects. -/
theorem finish_balanced {s : State} {c : CircuitNo} {r : Rec} {f : Sender → Sender}
    (carried : s.circuits[c].sender.carried = .record r) (nothing : (f s.circuits[c].sender).carried = .nothing)
    (chain : (f s.circuits[c].sender).chain = s.circuits[c].sender.chain) :
    Balanced s (select (returnRecord (modSender s c f) r) c) := by
  refine fun g => Balances.after (select_balanced (fun _ => ?_) g)
    ((returnRecord_balances _ r g).after (modSender_bared carried nothing chain g))
  rw [returnRecord_circuits, modSender_circuit]
  simp only [nothing]
  rfl

theorem finishCut_balanced {s : State} {c : CircuitNo} {r : Rec} (carried : s.circuits[c].sender.carried = .record r) :
    Balanced s (finishCut s c r) := by
  unfold finishCut
  exact finish_balanced carried rfl rfl

theorem finishDelivery_balanced {s : State} {c : CircuitNo} {r : Rec}
    (carried : s.circuits[c].sender.carried = .record r) : Balanced s (finishDelivery s c r) := by
  unfold finishDelivery
  exact finish_balanced carried rfl rfl

theorem makeBreak_balanced {s : State} {c : CircuitNo} {r b : Rec} {i : Nat}
    (carried : s.circuits[c].sender.carried = .record r) (named : r.ref ≠ none) (queued : s.circuits[c].queue[i]? = some b) :
    Balanced s (makeBreak s c r i b) := by
  have kept : (suspended s.circuits[c].sender r).ref = r.ref := rfl
  unfold makeBreak
  dsimp only
  let a := modQueue (modSender s c fun x =>
    { x with chain := x.chain ++ [suspended x r], breaksIn := count x.breaksIn }) c fun q => withoutAt q i
  have only : OnlyCircuit c s (carryRecord a c b true) :=
    ((modSender_only s c _).trans (modQueue_only _ c _)).trans (carryRecord_only a c b true)
  have before : a.circuits[c] = { s.circuits[c] with
      queue := withoutAt s.circuits[c].queue i
      sender := { s.circuits[c].sender with
        chain := s.circuits[c].sender.chain ++ [suspended s.circuits[c].sender r]
        breaksIn := count s.circuits[c].sender.breaksIn } } := by
    rw [modQueue_circuit, modSender_circuit]
  obtain ⟨y, begins, circuit⟩ := carryRecord_circuit a c b true
  rw [before] at begins circuit
  refine fun g => only.balances (fun _ => ?_) (fun _ => ?_) fun w => ?_ <;> rw [circuit]
  · simp only [Circuit.refsOf_records, begins.carried, begins.chain, carried, Carried.records, refsOf_append,
      refsOf_congr kept, refsOf_withoutAt queued]
    abel
  · exact idle_of_carrying begins.state
  · refine ⟨fun x mem => w.queue x (mem_withoutAt mem), fun x mem => ?_⟩
    rw [begins.chain] at mem
    obtain mem | mem := List.mem_append.mp mem
    · exact w.chain x mem
    · rw [List.mem_singleton.mp mem, kept]
      exact named

theorem takeBreak_balanced {s : State} {c : CircuitNo} {r : Rec} (carried : s.circuits[c].sender.carried = .record r)
    (named : r.ref ≠ none) : Balanced s (takeBreak s c r) := by
  unfold takeBreak
  split
  · exact takeNext_balanced s c
  · split
    · exact takeNext_balanced s c
    · split
      · next queued => exact makeBreak_balanced carried named queued
      · exact takeNext_balanced s c

theorem handBackCurrent_balances {s : State} {c : CircuitNo} {r : Rec} {a : RecRef} (f : RecRef) (ref : r.ref = some a)
    (current : a.version = .current) (g : Multiset RecRef) : Balances (refsOf [r] + g) s g (handBackCurrent s c r f) := by
  unfold handBackCurrent
  split
  · exact returnRecord_balances s r g
  · exact modQueue_joins (r := { r with composed := none }) ref current (.refl _) g

/-- R123 step 2: a reader of a superseded version has become a reader of the current one. -/
theorem modSlot_toCurrent {s : State} {r : Rec} {f : RecRef} (ref : r.ref = some f) (old : f.version = .superseded)
    (g : Multiset RecRef) :
    Balances (refsOf [r] + g) s (refsOf [toCurrent r f] + g) (modSlot s f.slot fun x => dropReader x f.take) := by
  have ref' : (toCurrent r f).ref = some { f with version := .current } := rfl
  rw [refsOf_named ref, refsOf_named ref']
  have self : f = { slot := f.slot, take := f.take, version := .superseded } := by rw [← old]
  have told (e : RecRef) : outstanding s + ({e} + g) = e ::ₘ (outstanding s + g) := by
    rw [← Multiset.singleton_add]; abel
  refine modSlot_balances (fun q _ away => ?_) (fun b => ?_) (fun b free => ?_) (fun _ readers t => ?_)
    (fun _ readers t v m => ?_) fun h => dropReader_blocked h f.take
  · have no : ¬ q f := fun h => away f h rfl
    have no' : ¬ q { f with version := .current } := fun h => away _ h rfl
    simp only [Multiset.singleton_add, Multiset.countP_cons_of_neg _ no, Multiset.countP_cons_of_neg _ no']
  · have pending : (dropReader s.slots[f.slot] f.take).pendingCount = s.slots[f.slot].pendingCount :=
      (congrArg Slot.pendingCount (dropReader_pendingCount s.slots[f.slot] f.take s.slots[f.slot].pendingCount) :)
    rw [pending, b.counts f.slot, told, told, Multiset.countP_cons_of_pos _ (by rfl), Multiset.countP_cons_of_pos _ (by rfl)]
  · rw [dropReader_state] at free
    rw [b.free _ free]
    exact dropReader_freed _
  · have before := readers.counts f.slot t
    rw [told, Multiset.count_cons] at before
    have differs : ({ slot := f.slot, take := t, version := .superseded } : RecRef) ≠ { f with version := .current } :=
      fun e => nomatch (congrArg RecRef.version e :)
    rw [told, Multiset.count_cons, if_neg differs, Nat.add_zero, supersededAt_dropReader]
    split
    · next here =>
      subst here
      rw [if_pos self.symm] at before
      rw [readersTold_oneReaderLess]
      omega
    · next elsewhere =>
      rw [if_neg fun e => elsewhere (congrArg RecRef.take e)] at before
      exact before
  · rw [supersededAt_dropReader]
    split
    · exact oneReaderLess_positive
    · exact readers.positive f.slot t v m

/-- R123. -/
theorem handBack_balances (s : State) (c : CircuitNo) (r : Rec) (g : Multiset RecRef) :
    Balances (refsOf [r] + g) s g (handBack s c r) := by
  unfold handBack
  split
  · exact returnRecord_balances s r g
  · next f ref =>
    split
    · next current => exact handBackCurrent_balances f ref current g
    · next old => exact (handBackCurrent_balances _ rfl rfl g).after (modSlot_toCurrent ref old g)

theorem handBackCurrent_sender (s : State) (c : CircuitNo) (r : Rec) (f : RecRef) :
    (handBackCurrent s c r f).circuits[c].sender = s.circuits[c].sender := by
  unfold handBackCurrent
  split
  · exact returnRecord_sender s c r
  · simp only [modQueue_circuit]

theorem handBack_sender (s : State) (c : CircuitNo) (r : Rec) :
    (handBack s c r).circuits[c].sender = s.circuits[c].sender := by
  unfold handBack
  split
  · exact returnRecord_sender s c r
  · split
    · exact handBackCurrent_sender s c r _
    · exact handBackCurrent_sender _ c _ _

theorem closeEnds_balanced {s : State} {c : CircuitNo} {r : Rec} (carried : s.circuits[c].sender.carried = .record r)
    (last : Phase) : Balanced s (closeEnds s c r last) := by
  let r' : Rec := { r with resume := closedOffset s.circuits[c].sender last r }
  have handed : Balanced s (handBack (modSender s c Sender.bare) c r') := fun g =>
    (handBack_balances _ c r' g).after (modSender_bared carried rfl rfl g)
  have none : (handBack (modSender s c Sender.bare) c r').circuits[c].sender.carried.records = [] := by
    rw [handBack_sender, modSender_circuit]
    rfl
  unfold closeEnds
  dsimp only
  split
  · exact (select_balanced fun _ => none).after handed
  · exact (enterPausing_balanced fun _ => none).after handed

theorem goOn_balanced {s : State} {c : CircuitNo} {r : Rec} (carried : s.circuits[c].sender.carried = .record r)
    (named : r.ref ≠ none) (last : Phase) : Balanced s (goOn s c r last) := by
  unfold goOn
  dsimp only
  split
  · split
    · exact closeEnds_balanced carried last
    · exact takeNext_balanced s c
  · split
    · have cleared : Balanced s (modSender s c fun y => { y with breakPending := false }) :=
        modSender_balanced_state rfl rfl rfl
      exact (takeBreak_balanced (by rw [modSender_circuit]; exact carried) named).after cleared
    · exact takeNext_balanced s c

theorem settlePhase_carried (v : Version) (x : Sender) : (settlePhase v x).carried = x.carried :=
  (congrArg Sender.carried (settlePhase_unsettled v x) :)

theorem settlePhase_state (v : Version) (x : Sender) : (settlePhase v x).state = x.state :=
  (congrArg Sender.state (settlePhase_unsettled v x) :)

theorem settlePhase_chain (v : Version) (x : Sender) : (settlePhase v x).chain = x.chain :=
  (congrArg Sender.chain (settlePhase_unsettled v x) :)

theorem recordSent_balanced {s : State} {c : CircuitNo} {r : Rec} (carried : s.circuits[c].sender.carried = .record r)
    (last : Phase) : Balanced s (recordSent s c r last) := by
  have settled (v : Version) : Balanced s (modSender s c fun _ => settlePhase v s.circuits[c].sender) :=
    modSender_balanced_state (f := fun _ => settlePhase v s.circuits[c].sender) (settlePhase_state v _)
      (settlePhase_carried v _) (settlePhase_chain v _)
  have still (v : Version) :
      (modSender s c fun _ => settlePhase v s.circuits[c].sender).circuits[c].sender.carried = .record r := by
    rw [modSender_circuit]
    exact (settlePhase_carried v _).trans carried
  unfold recordSent
  dsimp only
  split
  · split
    · exact finishCut_balanced carried
    · exact takeNext_balanced s c
  · split
    · exact startCut_balanced s c
    · next named =>
      split
      · exact (settled (readVersion s r)).trans (finishDelivery_balanced (still (readVersion s r)))
      · exact (settled (readVersion s r)).trans (goOn_balanced (still (readVersion s r)) named last)

/-! ### A report sent (R144, R145, R173, R184) -/

/-- A sender that carries a record or closes one down. -/
def Sender.Busy (x : Sender) : Prop := x.state = .carrying ∨ x.state = .closing

theorem offer_busy {s : State} {c : CircuitNo} (d : CircuitNo) (busy : s.circuits[c].sender.Busy) :
    (offer s d).circuits[c] = s.circuits[c] := by
  by_cases e : c = d
  · subst e
    unfold offer
    obtain state | state := busy <;> rw [state]
  · exact (offer_only s d).other e

theorem payOwed_busy {s : State} {c : CircuitNo} (k : EventKind) (busy : s.circuits[c].sender.Busy) :
    (payOwed s k).circuits[c] = s.circuits[c] := by
  unfold payOwed
  split
  · exact offer_busy (s := { modEntry s k fun e => { e with owed := false } with mgmt := _ }) _ busy
  · rfl

theorem reportLeaves_busy {s : State} {c : CircuitNo} (busy : s.circuits[c].sender.Busy) :
    (reportLeaves s).circuits[c] = s.circuits[c] :=
  foldl_keeps (fun u v : State => u.circuits[c].sender.Busy → v.circuits[c] = u.circuits[c]) (fun _ _ => rfl)
    (fun a b h => (b ((a h).symm ▸ h)).trans (a h)) payOwed (fun _ k h => payOwed_busy k h) allKinds _ busy

theorem Balanced.of_not_idle {s u : State} {c : CircuitNo} (not : ¬ s.circuits[c].Idle) (slots : u.slots = s.slots) :
    Balanced s u := fun _ =>
  ⟨fun b => absurd (b.idle c) not, fun b => absurd (b.idle c) not, fun b n => by rw [slots]; exact b n⟩

theorem reportSent_balanced {s : State} {c : CircuitNo} (carried : s.circuits[c].sender.carried = .report) :
    Balanced s (reportSent s c) := by
  have bared : Balanced s (modSender s c Sender.bare) := modSender_emptied (fun _ => by rw [carried]; rfl) rfl rfl
  have none : (modSender s c Sender.bare).circuits[c].sender.carried.records = [] := by rw [modSender_circuit]; rfl
  by_cases busy : s.circuits[c].sender.Busy
  · have still : (modSender s c Sender.bare).circuits[c].sender.Busy := by rw [modSender_circuit]; exact busy
    unfold reportSent
    dsimp only
    split
    · split
      · exact bared.trans (select_balanced fun _ => none)
      · exact takeNext_balanced s c
    · split
      · exact startCut_balanced s c
      · split
        · refine (bared.trans (reportLeaves_balanced _)).trans (select_balanced fun _ => ?_)
          rw [reportLeaves_busy still]
          exact none
        · exact takeNext_balanced s c
  · refine .of_not_idle (c := c) (fun idle => ?_) (reportSent_report s c).slots
    have nothing := idle (fun e => busy (.inl e)) fun e => busy (.inr e)
    rw [carried] at nothing
    cases nothing

theorem charSent_balanced (s : State) (c : CircuitNo) : Balanced s (charSent s c) := by
  unfold charSent
  dsimp only
  split
  · exact .refl s
  · next g _ =>
    have sent : Balanced s (modSender s c (afterSent g)) := modSender_balanced_state rfl rfl rfl
    split
    · exact sent
    · next carried => exact sent.trans (reportSent_balanced carried)
    · next carried => exact sent.trans (recordSent_balanced carried _)

theorem sendEmpty_balanced (fuel : Nat) (s : State) : Balanced s (sendEmpty fuel s) := by
  induction fuel generalizing s with
  | zero => exact .refl s
  | succ fuel ih =>
    unfold sendEmpty
    split
    · exact .refl s
    · exact (charSent_balanced s _).trans (ih _)

theorem atOnce_balanced (s : State) : Balanced s (atOnce s) := sendEmpty_balanced _ s

end Sys2Proof.Machine
/-! ## The books of the takes (O53 to O55)

The making of records, the order gate, the characters of a take, substitutes, and slots allocated. -/
namespace Sys2Proof.Machine

open Sys2Proof

/-! ### Records made (R113 to R117) -/

/-- A story stands in the slot. -/
def Storied (n : SlotNo) (s : State) : Prop := slotCore s.slots[n] ≠ slotCore Slot.freed

theorem Storied.delivery {n : SlotNo} {s u : State} (h : Storied n s) (d : DeliveryOnly s u) : Storied n u := by
  unfold Storied
  rw [d.stories n]
  exact h

theorem storied_of_take {n : SlotNo} {t : TakeNo} {k : Take} {s : State} (h : takeAt s n t = some k) : Storied n s := by
  intro same
  obtain ⟨z, take⟩ := slotCore_take same.symm t h
  exact ne_freed_of_take take rfl

theorem storied_of_occupied {n : SlotNo} {s : State} (h : s.slots[n].state = .occupied) : Storied n s := by
  intro same
  have state : s.slots[n].state = .free := (congrArg Slot.state same :)
  rw [h] at state
  cases state

/-- R62: the record that is in hand has been counted. -/
theorem addPending_balances {s : State} {n : SlotNo} {r : Rec} {a : RecRef} (ref : r.ref = some a) (slot : a.slot = n)
    (current : a.version = .current) (story : Storied n s) (g : Multiset RecRef) :
    Balances g s (refsOf [r] + g) (addPending s n) := by
  rw [refsOf_named ref]
  have told : outstanding s + ({a} + g) = a ::ₘ (outstanding s + g) := by
    rw [← Multiset.singleton_add]
    abel
  refine modSlot_balances (fun q _ away => ?_) (fun b => ?_) (fun b free => ?_) (fun _ readers t => ?_)
    (fun _ readers => readers.positive n) fun h => h.same rfl rfl
  · rw [Multiset.singleton_add, Multiset.countP_cons_of_neg _ fun h => away a h slot]
  · rw [told, Multiset.countP_cons_of_pos (p := fun r : RecRef => r.slot = n) (s := outstanding s + g) slot, b.counts n]
  · exact absurd (congrArg slotCore (b.free n free)) story
  · have differs : ({ slot := n, take := t, version := .superseded } : RecRef) ≠ a := by
      rintro rfl
      cases current
    rw [told, Multiset.count_cons_of_ne differs]
    exact readers.counts n t

theorem countMissed_balanced (s : State) (c : CircuitNo) : Balanced s (countMissed s c) :=
  modSender_balanced_state rfl rfl rfl

theorem raiseMissed_balanced (s : State) (c : CircuitNo) (k : Option Key) : Balanced s (raiseMissed s c k) := by
  unfold raiseMissed
  split
  · exact raise_balanced s _ _
  · exact .refl s

theorem miss_balanced (s : State) (c : CircuitNo) : Balanced s (miss s c) :=
  (raise_balanced _ _ _).after (countMissed_balanced s c)

/-- A making is for a slot with a story, and balances. -/
structure BalancedFor (n : SlotNo) (s u : State) : Prop where
  delivery : DeliveryOnly s u
  balanced : Storied n s → Balanced s u

theorem BalancedFor.refl (n : SlotNo) (s : State) : BalancedFor n s s := ⟨.refl s, fun _ => .refl s⟩

theorem BalancedFor.trans {n : SlotNo} {s t u : State} (h : BalancedFor n s t) (g : BalancedFor n t u) : BalancedFor n s u :=
  ⟨h.delivery.trans g.delivery, fun story => (h.balanced story).trans (g.balanced (story.delivery h.delivery))⟩

section Making

variable {n : SlotNo} {r : Rec} {a : RecRef} (ref : r.ref = some a) (slot : a.slot = n) (current : a.version = .current)

include ref slot current

theorem makeFree_balanced (s : State) (c : CircuitNo) : BalancedFor n s (makeFree s c n r) :=
  ⟨makeFree_delivery s c n r, fun story g => (joinQueue_balances ref current g).after
    ((addPending_balances (s := { s with freeCount := s.freeCount - 1 }) ref slot current story g).after
      (freeCount_balanced s _ g))⟩

theorem displaceAt_balanced {s : State} {c : CircuitNo} {i : Nat} {old : Rec} (queued : s.circuits[c].queue[i]? = some old) :
    BalancedFor n s (displaceAt s c i old n r) := by
  refine ⟨displaceAt_delivery s c i old n r, fun story g => ?_⟩
  have left : DeliveryOnly s (unnameIn (modQueue s c fun q => withoutAt q i) old.ref) :=
    (unnameIn_delivery _ _).after (modQueue_only s c _).delivery
  have missed : DeliveryOnly s (raiseMissed (countMissed (unnameIn (modQueue s c fun q => withoutAt q i) old.ref) c) c
      (keyOfRecord s old)) :=
    (raiseMissed_report _ c _).delivery.after ((modSender_only _ c _).delivery.after left)
  exact (joinQueue_balances ref current g).after ((addPending_balances ref slot current (story.delivery missed) g).after
    ((raiseMissed_balanced _ c _ g).after ((countMissed_balanced _ c g).after
      ((unnameIn_balances _ old g).after (modQueue_leaves queued g)))))

theorem turnFor_balanced (s : State) (c : CircuitNo) : BalancedFor n s (turnFor n r s c) := by
  have missed : BalancedFor n s (miss s c) := ⟨miss_delivery s c, fun _ => miss_balanced s c⟩
  unfold turnFor
  split
  · exact makeFree_balanced ref slot current s c
  · split
    · split
      · exact missed
      · split
        · next queued => exact displaceAt_balanced ref slot current queued
        · exact missed
    · exact missed

omit ref slot current in
theorem takenBeforeTurn_balanced (s : State) (i : Instr) : Balanced s (takenBeforeTurn s i) := by
  unfold takenBeforeTurn
  split
  · split
    · exact charSent_balanced s _
    · exact .refl s
  · split
    · exact motorReady_balanced _ s
    · exact .refl s
  · exact .refl s

omit ref slot current in
theorem inGap_balanced {f : State → Instr → State} (h : ∀ s i, Balanced s (f s i)) (s : State) : Balanced s (inGap f s) :=
  (foldl_balanced f h _ _).after (.of_eq rfl rfl)

theorem makeTurn_balanced (s : State) (c : CircuitNo) : BalancedFor n s (makeTurn n r s c) :=
  BalancedFor.trans ⟨inGap_delivery _ takenBeforeTurn_delivery s, fun _ => inGap_balanced takenBeforeTurn_balanced s⟩
    (turnFor_balanced ref slot current _ c)

theorem makeRecords_balanced (s : State) (cs : List CircuitNo) : BalancedFor n s (makeRecords s cs n r) :=
  foldl_keeps (BalancedFor n) (.refl n) .trans _ (makeTurn_balanced ref slot current) cs s

end Making

theorem makeFor_balanced (s : State) (n : SlotNo) (t : TakeNo) (k : RecKind) (gap : List TakeNo) (but : List CircuitNo) :
    Balanced s (makeFor s n t k gap but) := by
  unfold makeFor
  split
  · exact .refl s
  · next x present =>
    have made := makeRecords_balanced (r := freshRecord n t x.cls k gap) (a := { slot := n, take := t, version := .current })
      rfl rfl rfl s ((routeStory s n x.cls).filter fun c => !decide (c ∈ but))
    exact made.balanced (storied_of_take present)

/-! ### A take changed -/

/-- A change of a slot that keeps its state and its counts, and leaves a FREE slot as it was. -/
theorem modSlot_balanced_state {s : State} {n : SlotNo} {f : Slot → Slot}
    (pending : (f s.slots[n]).pendingCount = s.slots[n].pendingCount) (state : (f s.slots[n]).state = s.slots[n].state)
    (freed : s.slots[n] = Slot.freed → f s.slots[n] = Slot.freed)
    (superseded : ∀ t, (f s.slots[n]).supersededAt t = s.slots[n].supersededAt t)
    (blocked : s.slots[n].Blocked → (f s.slots[n]).Blocked) : Balanced s (modSlot s n f) :=
  modSlot_balanced pending (fun free e => freed (free (state ▸ e))) superseded blocked

theorem modTake_balanced {s : State} {n : SlotNo} {t : TakeNo} {f : Take → Take}
    (superseded : ∀ k, takeAt s n t = some k → (f k).superseded = k.superseded)
    (blocks : ∀ k b, takeAt s n t = some k → (f k).blockCount b = k.blockCount b)
    (sized : ∀ k, takeAt s n t = some k → k.Sized → (f k).Sized) : Balanced s (modTake s n t f) := by
  unfold modTake
  refine modSlot_balanced_state rfl rfl (fun freed => ?_) (fun j => ?_) fun h => h.modTake blocks sized
  · rw [freed]
    have none : modAt Slot.freed.takes t (Option.map f) = Slot.freed.takes := by
      refine array_ext fun j => ?_
      rw [modAt_get]
      split
      · next e =>
        subst e
        simp [Slot.freed]
      · rfl
    rw [none]
  · unfold Slot.supersededAt
    dsimp only
    rw [modAt_get]
    split
    · next e =>
      subst e
      cases take : s.slots[n].takes[j] with
      | none => rfl
      | some k => exact superseded k take
    · rfl

/-- A take changed in neither its versions nor, while it has a replacement, its state. -/
theorem modTake_balanced_versions {s : State} {n : SlotNo} {t : TakeNo} {f : Take → Take}
    (versions : ∀ k, takeAt s n t = some k → (f k).current = k.current ∧ (f k).replacement = k.replacement ∧
      (f k).superseded = k.superseded)
    (replacing : ∀ k, takeAt s n t = some k → k.Sized → k.replacement ≠ none → (f k).state = k.state) :
    Balanced s (modTake s n t f) := by
  have same {k : Take} (take : takeAt s n t = some k) : versionsOf (f k) = versionsOf k := by
    obtain ⟨current, replacement, superseded⟩ := versions k take
    unfold versionsOf
    rw [current, replacement, superseded]
  refine modTake_balanced (fun k take => (versions k take).2.2) (fun k b take => ?_) fun k take sized => ?_
  · unfold Take.blockCount
    rw [same take]
  · refine ⟨same take ▸ sized.sizes, fun some => ?_⟩
    rw [(versions k take).2.1] at some
    rw [replacing k take sized some]
    exact sized.replacing some

/-! ### The order gate (R72 to R75) -/

/-- A take that is stored, or that is no substitute: the gate may decide it. -/
def Storable (k : Take) : Prop := storedTake k = true ∨ k.replacement = none

theorem Storable.replacement {k : Take} (h : Storable k) (sized : k.Sized) : k.replacement = none := by
  obtain stored | none := h
  · by_contra some
    obtain state | state := sized.replacing some <;> simp [storedTake, state] at stored
  · exact none

theorem Storable.blind : BlindToSuperseded Storable := fun _ _ h => h

theorem storable_of_waiting {s : State} {n : SlotNo} {t : TakeNo} (waits : isWaiting s.slots[n] t = true) :
    TakeIs n t Storable s := by
  unfold isWaiting at waits
  split at waits
  · next k take => exact ⟨k, take, .inl (by simp [storedTake, of_decide_eq_true waits])⟩
  · cases waits

/-- Each take of the list, if it is present, may be decided. -/
def AllStorable (n : SlotNo) (s : State) (ts : List TakeNo) : Prop := ∀ t ∈ ts, TakeIs n t Storable s

theorem storable_of_take {n : SlotNo} {t : TakeNo} {k : Take} {s : State} (is : TakeIs n t Storable s)
    (take : takeAt s n t = some k) : Storable k := by
  obtain ⟨k', take', h⟩ := is
  obtain rfl := Option.some.inj (take.symm.trans take')
  exact h

theorem releaseTake_balanced {s : State} {n : SlotNo} {t : TakeNo} (is : TakeIs n t Storable s) (k : RecKind)
    (gap : List TakeNo) : Balanced s (releaseTake s n t k gap) :=
  (makeFor_balanced _ n t k gap []).after (modTake_balanced_versions (fun _ _ => ⟨rfl, rfl, rfl⟩)
    fun _ take sized some => absurd ((storable_of_take is take).replacement sized) some)

/-- A release leaves what the gate may decide as it was. -/
theorem releaseTake_storable {s : State} {n : SlotNo} {j t : TakeNo} (is : TakeIs n t Storable s) (k : RecKind)
    (gap : List TakeNo) : TakeIs n t Storable (releaseTake s n j k gap) := by
  refine TakeIs.delivery ?_ Storable.blind (makeFor_delivery _ n j k gap [])
  by_cases e : t = j
  · subst e
    exact is.modTake fun _ _ => .inl (by simp [storedTake])
  · obtain ⟨x, take, h⟩ := is
    exact ⟨x, by rw [takeAt_modTake, if_neg e, take], h⟩

theorem nextReady_storable {s : State} {n : SlotNo} {t : TakeNo} (ready : nextReady s.slots[n] = some t) :
    TakeIs n t Storable s := by
  have found := List.find?_some ready
  rw [Bool.and_eq_true] at found
  exact storable_of_waiting found.1

theorem searchGate_balanced (fuel : Nat) (s : State) (n : SlotNo) : Balanced s (searchGate fuel s n) := by
  induction fuel generalizing s with
  | zero => exact .refl s
  | succ fuel ih =>
    unfold searchGate
    split
    · exact .refl s
    · next ready => exact (releaseTake_balanced (nextReady_storable ready) .new []).trans (ih _)

theorem gateSearch_balanced (s : State) (n : SlotNo) : Balanced s (gateSearch s n) := searchGate_balanced 12 s n

theorem releases_balanced (gone due : List TakeNo) {s : State} {n : SlotNo} (is : AllStorable n s due) :
    Balanced s (due.foldl (fun u t => releaseTake u n t .new (gapNotice gone t)) s) := by
  induction due generalizing s with
  | nil => exact .refl s
  | cons t due ih =>
    refine (releaseTake_balanced (is t (List.mem_cons_self ..)) .new (gapNotice gone t)).trans (ih fun j mem => ?_)
    exact releaseTake_storable (is j (List.mem_cons_of_mem t mem)) .new _

theorem waitingUpTo_storable (s : State) (n : SlotNo) (m : TakeNo) : AllStorable n s (waitingUpTo s.slots[n] m) := by
  intro t mem
  have waits := (List.mem_filter.mp mem).2
  rw [Bool.and_eq_true] at waits
  exact storable_of_waiting waits.2

/-- Numbers passed are no matter of the books, in a slot that holds a story. -/
theorem modSlot_passed_balanced {s : State} {n : SlotNo} {t : TakeNo} {k : Take} (take : takeAt s n t = some k)
    (f : Slot → TakeSet) : Balanced s (modSlot s n fun x => { x with passed := f x }) :=
  modSlot_balanced_state rfl rfl (fun freed => absurd freed (ne_freed_of_take take)) (fun _ => rfl) fun h => h.same rfl rfl

theorem expireWait_balanced {s : State} {n : SlotNo} {m : TakeNo} {k : Take} (take : takeAt s n m = some k) :
    Balanced s (expireWait s n m) := by
  let gone := passedBy s.slots[n] m
  let a := modSlot s n fun x => { x with passed := unionOf x.passed (setOf gone) }
  have passed : Balanced s a := modSlot_passed_balanced take fun x => unionOf x.passed (setOf gone)
  have due : AllStorable n a (waitingUpTo s.slots[n] m) := by
    intro t mem
    obtain ⟨k, take, h⟩ := waitingUpTo_storable s n m t mem
    exact ⟨k, by rw [takeAt_modSlot]; exact take, h⟩
  have searched := passed.trans ((releases_balanced gone _ due).trans (gateSearch_balanced _ n))
  unfold expireWait
  dsimp only
  split
  · exact searched.trans (raise_balanced _ _ _)
  · exact searched

theorem releaseLate_balanced {s : State} {n : SlotNo} {t : TakeNo} (is : TakeIs n t Storable s) :
    Balanced s (releaseLate s n t) := by
  have ⟨k, take, h⟩ := is
  let a := modSlot s n fun x => { x with passed := put x.passed t false }
  have passed : Balanced s a := modSlot_passed_balanced take fun x => put x.passed t false
  have late : Balanced a (modTake a n t fun k => { k with late := true }) :=
    modTake_balanced_versions (fun _ _ => ⟨rfl, rfl, rfl⟩) fun _ _ _ _ => rfl
  have still : TakeIs n t Storable (modTake a n t fun k => { k with late := true }) :=
    TakeIs.modTake (P := Storable) ⟨k, by rw [takeAt_modSlot]; exact take, h⟩ fun _ h => h
  rw [releaseLate_eq]
  exact (passed.trans late).trans (releaseTake_balanced still .late [])

theorem gate_balanced {s : State} {n : SlotNo} {t : TakeNo} (is : TakeIs n t Storable s) : Balanced s (gate s n t) := by
  unfold gate
  dsimp only
  split
  · exact (releaseLate_balanced is).trans (gateSearch_balanced _ n)
  · split
    · exact (releaseTake_balanced is .new []).trans (gateSearch_balanced _ n)
    · have waits : Balanced s (modTake s n t fun k => { k with state := .waiting, waitTimer := some s.takeWait }) :=
        modTake_balanced_versions (fun _ _ => ⟨rfl, rfl, rfl⟩)
          fun _ take sized some => absurd ((storable_of_take is take).replacement sized) some
      split
      · have ⟨k, take, _⟩ := is
        refine waits.trans (expireWait_balanced (k := { k with state := .waiting, waitTimer := some s.takeWait }) ?_)
        rw [takeAt_modTake_same, take]
        rfl
      · exact waits

/-! ### Filling a take (R69, R70) -/

theorem Take.blockCount_eq (k : Take) (b : BlockNo) : k.blockCount b = k.current.blocks.count b +
    (((k.replacement.map fun p => p.1.blocks).getD []).count b + ((k.superseded.map fun p => p.1.blocks).getD []).count b) := by
  unfold Take.blockCount versionsOf
  cases k.replacement <;> cases k.superseded <;> simp

/-- The blocks of the version being filled are exchanged. -/
theorem blockCount_withFilling (k : Take) (v : Version) (b : BlockNo) :
    (withFilling k v).blockCount b + (fillingVersion k).blocks.count b = k.blockCount b + v.blocks.count b := by
  rw [Take.blockCount_eq, Take.blockCount_eq]
  unfold withFilling fillingVersion
  cases replacement : k.replacement with
  | none =>
    dsimp only
    omega
  | some p =>
    simp only [Option.map_some, Option.getD_some]
    omega

theorem withFilling_superseded (k : Take) (v : Version) : (withFilling k v).superseded = k.superseded := by
  unfold withFilling
  split <;> rfl

theorem mem_versionsOf_withFilling {k : Take} {v w : Version} (h : w ∈ versionsOf (withFilling k v)) :
    w = v ∨ w ∈ versionsOf k := by
  unfold withFilling at h
  cases replacement : k.replacement with
  | none =>
    simp only [replacement, versionsOf, List.mem_cons] at h ⊢
    tauto
  | some p =>
    simp only [replacement, versionsOf, List.mem_cons, List.mem_append, Option.map_some, Option.mem_toList] at h ⊢
    obtain h | h | h := h
    · exact .inr (.inl h)
    · exact .inl (Option.some.inj h).symm
    · exact .inr (.inr (.inr h))

theorem withFilling_replacement_none {k : Take} {v : Version} : (withFilling k v).replacement = none ↔ k.replacement = none := by
  unfold withFilling
  split
  · next h => simp [h]
  · rfl

theorem Take.Sized.withFilling {k : Take} (h : k.Sized) {v : Version} (size : v.blocks.length = (v.text.length + 63) / 64) :
    (withFilling k v).Sized := by
  refine ⟨fun w mem => ?_, fun some => ?_⟩
  · obtain rfl | mem := mem_versionsOf_withFilling mem
    · exact size
    · exact h.sizes w mem
  · rw [withFilling_state]
    exact h.replacing fun none => some (withFilling_replacement_none.mpr none)

theorem fillingVersion_mem (k : Take) : fillingVersion k ∈ versionsOf k := by
  unfold fillingVersion
  split
  · next replacement => simp [versionsOf, replacement]
  · exact List.mem_cons_self ..

/-- The take is written with a version of the same blocks. -/
theorem withFilling_balanced {s : State} {n : SlotNo} {t : TakeNo} {k : Take} {v : Version} {f : Take → Take}
    (take : takeAt s n t = some k) (written : ∀ x, f x = withFilling k v) (blocks : v.blocks = (fillingVersion k).blocks)
    (size : (v.text.length + 63) / 64 = ((fillingVersion k).text.length + 63) / 64) : Balanced s (modTake s n t f) := by
  have only {x : Take} (h : takeAt s n t = some x) : x = k := Option.some.inj (h.symm.trans take)
  refine modTake_balanced (fun x h => ?_) (fun x b h => ?_) fun x h sized => ?_ <;> rw [written]
  · rw [only h]
    exact withFilling_superseded k v
  · have exchanged := blockCount_withFilling k v b
    rw [only h]
    rw [blocks] at exchanged
    omega
  · refine (only h ▸ sized).withFilling ?_
    rw [blocks, size]
    exact (only h ▸ sized).sizes _ (fillingVersion_mem k)

end Sys2Proof.Machine
namespace Sys2Proof.Machine

open Sys2Proof

/-! ### Characters written, and takes cut (R69 to R71) -/

/-- The cut flag is no matter of the blocks. -/
theorem Take.Sized.cut {k : Take} (h : k.Sized) : (Sys2Proof.Machine.withFilling k { fillingVersion k with cut := true }).Sized := by
  have size := h.sizes (fillingVersion k) (fillingVersion_mem k)
  exact h.withFilling size

theorem blockCount_cut (k : Take) (b : BlockNo) :
    (withFilling k { fillingVersion k with cut := true }).blockCount b = k.blockCount b :=
  Nat.add_right_cancel (blockCount_withFilling k { fillingVersion k with cut := true } b)

theorem raiseTakeCut_balanced (s : State) (n : SlotNo) (t : TakeNo) : Balanced s (raiseTakeCut s n t) := by
  unfold raiseTakeCut
  split
  · exact raise_balanced s _ _
  · exact .refl s

/-- R69: a new block is taken for the version. -/
theorem beginBlock_balanced {s : State} {n : SlotNo} {t : TakeNo} {k : Take} {b : BlockNo} (h : House)
    (take : takeAt s n t = some k) (full : (fillingVersion k).text.length % 64 = 0)
    (room : lowestFree s.slots[n].blockMap = some b) : Balanced s (modSlot s n fun x =>
      { x with
        takes := put x.takes t (some (withFilling k { fillingVersion k with
          blocks := (fillingVersion k).blocks ++ [b], text := (fillingVersion k).text ++ [h] }))
        blockMap := put x.blockMap b true }) := by
  have free : s.slots[n].blockMap[b] = false := by simpa using List.find?_some room
  refine modSlot_balanced_state rfl rfl (fun freed => absurd freed (ne_freed_of_take take)) (fun j => ?_) fun blocked => ?_
  · rw [supersededAt_put]
    split
    · next e =>
      unfold takeAt at take
      rw [e, Slot.supersededAt, take]
      exact withFilling_superseded k _
    · rfl
  · refine blocked.put rfl (fun d => ?_) fun x e => ?_
    · have exchanged := blockCount_withFilling k { fillingVersion k with
        blocks := (fillingVersion k).blocks ++ [b], text := (fillingVersion k).text ++ [h] } d
      unfold takeAt at take
      dsimp only at exchanged
      rw [List.count_append] at exchanged
      simp only [take, blockCount, Option.map_some, Option.getD_some, inUse]
      by_cases e : d = b
      · subst e
        rw [List.count_singleton_self] at exchanged
        rw [put_same, free, if_neg Bool.false_ne_true, if_pos rfl]
        omega
      · rw [List.count_singleton, beq_false_of_ne (Ne.symm e)] at exchanged
        rw [put_other _ _ e]
        simp only [Bool.false_eq_true, if_false] at exchanged
        omega
    · obtain rfl := Option.some.inj e
      have sized := blocked.sized t k take
      refine sized.withFilling ?_
      have size := sized.sizes _ (fillingVersion_mem k)
      simp only [List.length_append, List.length_singleton, size]
      omega

/-- R70: the take is cut. -/
theorem cutFilling_balanced {s : State} {n : SlotNo} {t : TakeNo} {k : Take} (take : takeAt s n t = some k) :
    Balanced s (modTake s n t fun _ =>
      { withFilling k { fillingVersion k with cut := true } with state := .cutFilling }) := by
  have only {x : Take} (h : takeAt s n t = some x) : x = k := Option.some.inj (h.symm.trans take)
  refine modTake_balanced (fun x h => ?_) (fun x b h => ?_) fun x h sized => ?_
  · rw [only h]
    exact withFilling_superseded k _
  · rw [only h]
    exact blockCount_cut k b
  · exact ⟨(only h ▸ sized).cut.sizes, fun _ => .inr rfl⟩

theorem writeChar_balanced (s : State) (n : SlotNo) (t : TakeNo) (h : House) : Balanced s (writeChar s n t h) := by
  unfold writeChar
  split
  · exact .refl s
  · next k take =>
    split
    · dsimp only
      split
      · next full =>
        split
        · next room => exact beginBlock_balanced h take full room
        · exact (cutFilling_balanced take).trans (raiseTakeCut_balanced _ n t)
      · next room =>
        refine withFilling_balanced take (fun _ => rfl) rfl ?_
        have : (fillingVersion k).text.length % 64 ≠ 0 := room
        simp only [List.length_append, List.length_singleton]
        omega
    · exact .refl s

theorem endCut_balanced (s : State) (n : SlotNo) (t : TakeNo) : Balanced s (endCut s n t) := by
  unfold endCut
  split
  · exact .refl s
  · next k take =>
    dsimp only
    split
    · exact .refl s
    · refine Balanced.trans ?_ (raiseTakeCut_balanced _ n t)
      refine modTake_balanced (fun x h => ?_) (fun x b h => ?_) fun x h sized => ?_ <;>
        obtain rfl : x = k := Option.some.inj (h.symm.trans take)
      · exact withFilling_superseded x _
      · exact blockCount_cut x b
      · exact sized.cut

/-! ### Records pulled (R63) -/

theorem refsOf_filter (p : Rec → Bool) (l : List Rec) :
    refsOf (l.filter p) + refsOf (l.filter fun r => !p r) = refsOf l := by
  rw [← refsOf_append]
  exact refsOf_perm (List.filter_append_perm p l)

theorem detachCarried_balanced (p : Rec → Bool) (line : CutLine) (s : State) (c : CircuitNo) :
    Balanced s (detachCarried p line s c) := by
  unfold detachCarried
  split
  · next r carried =>
    split
    · refine fun g => (unnameIn_balances _ r g).after ((modSender_only s c _).balances (fun _ => ?_) (fun idle => ?_) fun w => ?_) <;>
        rw [modSender_circuit]
      · simp only [Circuit.refsOf_records, carried, Carried.records]
        rw [refsOf_detached (r := { r with ref := none }) rfl]
        abel
      · intro a b
        cases carried.symm.trans (idle a b)
      · exact ⟨w.queue, w.chain⟩
    · exact .refl s
  · exact .refl s

theorem pullCircuit_balanced (p : Rec → Bool) (line : CutLine) (s : State) (c : CircuitNo) :
    Balanced s (pullCircuit p line s c) := by
  unfold pullCircuit
  dsimp only
  refine fun g => (detachCarried_balanced p line _ c g).after ((returnRecords_balances _ _ g).after ?_)
  have only := circuitTraffic_only s c (fun _ => s.circuits[c].queue.filter fun r => !p r)
    fun x => { x.sender with chain := s.circuits[c].sender.chain.filter fun r => !p r }
  have circuit : (modCircuit s c fun x => { x with
      queue := s.circuits[c].queue.filter fun r => !p r
      sender := { x.sender with chain := s.circuits[c].sender.chain.filter fun r => !p r } }).circuits[c] =
    { s.circuits[c] with
      queue := s.circuits[c].queue.filter fun r => !p r
      sender := { s.circuits[c].sender with chain := s.circuits[c].sender.chain.filter fun r => !p r } } := modAt_same _ c _
  refine only.balances (fun _ => ?_) (fun idle => ?_) fun w => ?_ <;> rw [circuit]
  · simp only [Circuit.refsOf_records, refsOf_append, ← refsOf_filter p s.circuits[c].queue,
      ← refsOf_filter p s.circuits[c].sender.chain]
    abel
  · exact idle
  · exact ⟨fun r mem => w.queue r (List.mem_filter.mp mem).1, fun r mem => w.chain r (List.mem_filter.mp mem).1⟩

theorem pullRecords_balanced (p : Rec → Bool) (line : CutLine) (s : State) : Balanced s (pullRecords p line s) :=
  foldl_balanced _ (pullCircuit_balanced p line) _ s

theorem returnRecords_circuits (rs : List Rec) (s : State) : (returnRecords s rs).circuits = s.circuits := by
  induction rs generalizing s with
  | nil => rfl
  | cons r rs ih => exact (ih (returnRecord s r)).trans (returnRecord_circuits s r)

theorem detachCarried_circuits (p : Rec → Bool) (line : CutLine) (s : State) (c : CircuitNo) :
    (detachCarried p line s c).circuits =
      modAt s.circuits c fun x => { x with sender := x.sender.detached p line } := by
  have same (e : (s.circuits[c].sender).detached p line = s.circuits[c].sender) :
      s.circuits = modAt s.circuits c fun x => { x with sender := x.sender.detached p line } :=
    (modAt_id _ _ _ (congrArg (fun y => { s.circuits[c] with sender := y }) e)).symm
  cases carried : s.circuits[c].sender.carried with
  | nothing =>
    simp only [detachCarried, carried]
    exact same (by simp only [Sender.detached, carried])
  | report =>
    simp only [detachCarried, carried]
    exact same (by simp only [Sender.detached, carried])
  | record r =>
    cases reads : p r with
    | false =>
      simp only [detachCarried, carried, reads, Bool.false_eq_true, if_false]
      exact same (by simp only [Sender.detached, carried, reads, Bool.false_eq_true, if_false])
    | true =>
      simp only [detachCarried, carried, reads, if_true, unnameIn_circuits, modSender, modCircuit]
      refine congrArg (Vector.set s.circuits c.val · c.isLt) ?_
      simp only [Sender.detached, carried, reads, if_true]

/-- R63 on one circuit. -/
theorem pullCircuit_circuits (p : Rec → Bool) (line : CutLine) (s : State) (c : CircuitNo) :
    (pullCircuit p line s c).circuits = modAt s.circuits c (Circuit.pulled p line) := by
  unfold pullCircuit
  dsimp only
  rw [detachCarried_circuits, returnRecords_circuits]
  simp only [modCircuit, modAt_modAt]
  refine congrArg (Vector.set s.circuits c.val · c.isLt) ?_
  exact congrArg (fun y : Sender => { s.circuits[c] with queue := s.circuits[c].queue.filter fun r => !p r, sender := y })
    (Sender.detached_chain _ _ _)

theorem pullRecords_circuits (p : Rec → Bool) (line : CutLine) (s : State) :
    (pullRecords p line s).circuits = mapAll s.circuits (Circuit.pulled p line) := by
  have all (cs : List CircuitNo) (s : State) : (cs.foldl (pullCircuit p line) s).circuits =
      cs.foldl (fun u c => modAt u c (Circuit.pulled p line)) s.circuits := by
    induction cs generalizing s with
    | nil => rfl
    | cons c cs ih => rw [List.foldl_cons, ih, pullCircuit_circuits, List.foldl_cons]
  rw [pullRecords, all, foldl_modAt_all]

/-- R63: no record that was pulled is left. -/
theorem Circuit.pulled_none (q : RecRef → Bool) (line : CutLine) (x : Circuit) :
    (refsOf (x.pulled (refers q) line).records).countP (fun f => q f = true) = 0 := by
  have none (l : List Rec) : (l.filter fun r => !refers q r).filter (refers q) = [] := by
    rw [List.filter_filter, List.filter_eq_nil_iff]
    simp
  have carried : ((x.pulled (refers q) line).sender.carried.records.filter (refers q)) = [] := by
    simp only [Circuit.pulled, Sender.detached]
    split
    · next r carried =>
      cases reads : refers q r with
      | true => simp [Carried.records, refers]
      | false => simp [carried, Carried.records, reads]
    · next carried => 
      cases e : x.sender.carried with
      | record r => exact absurd e (carried r)
      | nothing => rfl
      | report => rfl
  rw [countP_refsOf, Circuit.records, List.filter_append, List.filter_append, carried]
  simp only [Circuit.pulled, none, List.append_nil, List.length_nil]

theorem pullRecords_none (q : RecRef → Bool) (line : CutLine) (s : State) :
    (outstanding (pullRecords (refers q) line s)).countP (fun f => q f = true) = 0 := by
  rw [outstanding, countP_sum]
  refine Finset.sum_eq_zero fun c _ => ?_
  rw [pullRecords_circuits, mapAll_get]
  exact Circuit.pulled_none q line _

end Sys2Proof.Machine
namespace Sys2Proof.Machine

open Sys2Proof

/-! ### Substitutes (R76, R78 to R81) -/

theorem supersededAt_freeSuperseded (x : Slot) (t j : TakeNo) :
    (freeSuperseded x t).supersededAt j = if j = t then none else x.supersededAt j := by
  have unchanged (h : x.supersededAt t = none) : x.supersededAt j = if j = t then none else x.supersededAt j := by
    split
    · next e => rw [e, h]
    · rfl
  unfold freeSuperseded
  split
  · next none => exact unchanged (by simp only [Slot.supersededAt, none]; rfl)
  · next k take =>
    split
    · next none => exact unchanged (by simp only [Slot.supersededAt, take]; exact none)
    · next v m sup =>
      rw [supersededAt_put]
      rfl

theorem freeSuperseded_blocked {x : Slot} (h : x.Blocked) (t : TakeNo) : (freeSuperseded x t).Blocked := by
  unfold freeSuperseded
  split
  · exact h
  · next k take =>
    split
    · exact h
    · next v m sup =>
      refine h.release (k := k) (k' := { k with superseded := none }) take rfl rfl (fun b => ?_) fun sized => ?_
      · have self : k = { k with superseded := some (v, m) } := by rw [← sup]
        conv_lhs => rw [self]
        exact k.blockCount_superseded b (some (v, m))
      · exact sized.superseded fun _ e => nomatch e

theorem freeSuperseded_count (x : Slot) (t : TakeNo) : (freeSuperseded x t).pendingCount = x.pendingCount := by
  unfold freeSuperseded
  split
  · rfl
  · split <;> rfl

theorem freeSuperseded_state (x : Slot) (t : TakeNo) : (freeSuperseded x t).state = x.state :=
  (congrArg Slot.state (slotCore_freeSuperseded x t) :)

theorem count_eq_countP_decide (a : RecRef) (m : Multiset RecRef) : m.count a = m.countP fun f => decide (f = a) = true := by
  rw [Multiset.count]
  exact Multiset.countP_congr rfl fun f _ => by rw [decide_eq_true_eq, @eq_comm _ f a]

theorem count_eq_zero_of_reads {n : SlotNo} {t : TakeNo} {v : ReadVersion} {m : Multiset RecRef}
    (none : m.countP (fun f => decide (f = { slot := n, take := t, version := v }) = true) = 0) :
    m.count { slot := n, take := t, version := v } = 0 := (count_eq_countP_decide _ m).trans none

/-- R79: the superseded version goes with the last of its readers. -/
theorem dropSuperseded_closes (s : State) (n : SlotNo) (t : TakeNo) : Closes s (dropSuperseded s n t) := by
  let a := pullRecords (reads n t .superseded) .storeCut s
  have gone : (outstanding a).count { slot := n, take := t, version := .superseded } = 0 := by
    have none := pullRecords_none (fun f => decide (f = { slot := n, take := t, version := .superseded })) .storeCut s
    rw [← reads_eq] at none
    exact count_eq_zero_of_reads none
  refine (pullRecords_balanced _ _ s).closes.trans (modSlot_balances (fun _ _ _ => rfl) (fun b => ?_) (fun b free => ?_)
    (fun _ r j => ?_) (fun _ r j v m => ?_) fun h => freeSuperseded_blocked h t)
  · rw [freeSuperseded_count]
    exact b.counts n
  · rw [freeSuperseded_state] at free
    rw [b.free n free, freeSuperseded_freed]
  · rw [supersededAt_freeSuperseded]
    split
    · next e =>
      rw [e, add_zero]
      exact gone.symm
    · exact r.counts n j
  · rw [supersededAt_freeSuperseded]
    split
    · exact fun e => nomatch e
    · exact r.positive n j v m

theorem dropSuperseded_none (s : State) (n : SlotNo) (t : TakeNo) : (dropSuperseded s n t).slots[n].supersededAt t = none := by
  unfold dropSuperseded
  generalize pullRecords (reads n t .superseded) .storeCut s = a
  have here : (modSlot a n fun x => freeSuperseded x t).slots[n] = freeSuperseded a.slots[n] t := modAt_same _ n _
  rw [here, supersededAt_freeSuperseded, if_pos rfl]

/-- R78: no record reads the superseded version any more. -/
theorem dropSuperseded_unread (s : State) (n : SlotNo) (t : TakeNo) :
    (outstanding (dropSuperseded s n t)).count { slot := n, take := t, version := .superseded } = 0 := by
  have none := pullRecords_none (fun f => decide (f = { slot := n, take := t, version := .superseded })) .storeCut s
  rw [← reads_eq] at none
  unfold dropSuperseded
  generalize pullRecords (reads n t .superseded) .storeCut s = a at none
  exact count_eq_zero_of_reads none

section Replace

variable {n : SlotNo} {t : TakeNo}

/-- What becomes of a reference when readers of the current version are made readers of the superseded one (R78). -/
def supersededRef (n : SlotNo) (t : TakeNo) (f : RecRef) : RecRef :=
  if f = { slot := n, take := t, version := .current } then { f with version := .superseded } else f

/-- What becomes of the reference of a queued record when it is rewritten (R80). -/
def rewrittenRef (n : SlotNo) (t : TakeNo) (f : RecRef) : RecRef :=
  if f.slot = n ∧ f.take = t then { slot := n, take := t, version := .current } else f

theorem toSuperseded_ref (r : Rec) : (toSuperseded n t r).ref = r.ref.map (supersededRef n t) := by
  cases ref : r.ref with
  | none => simp [toSuperseded, reads, ref]
  | some f =>
    by_cases reader : f = { slot := n, take := t, version := .current }
    · simp [toSuperseded, reads, ref, reader, supersededRef]
    · simp [toSuperseded, reads, ref, reader, supersededRef]

theorem rewrite_ref (r : Rec) : (rewrite n t r).ref = r.ref.map (rewrittenRef n t) := by
  cases ref : r.ref with
  | none => simp [rewrite, ofTake, ref]
  | some f =>
    by_cases of : f.slot = n ∧ f.take = t
    · simp [rewrite, ofTake, ref, of, rewrittenRef]
    · have not : (decide (f.slot = n) && decide (f.take = t)) = false := by simpa using of
      simp [rewrite, ofTake, ref, not, of, rewrittenRef]

theorem refsOf_mapped {g : Rec → Rec} {h : RecRef → RecRef} (ref : ∀ r, (g r).ref = r.ref.map h) (l : List Rec) :
    refsOf (l.map g) = (refsOf l).map h := by
  have : Rec.ref ∘ g = fun r => r.ref.map h := funext ref
  rw [refsOf, List.filterMap_map, this, refsOf, Multiset.map_coe, List.map_filterMap]

/-- What becomes of a circuit (R78 step 2, R80). -/
def Circuit.replaced (n : SlotNo) (t : TakeNo) (x : Circuit) : Circuit :=
  { x with
    queue := x.queue.map (rewrite n t)
    sender := { x.sender with
      chain := x.sender.chain.map (toSuperseded n t)
      carried := match x.sender.carried with
        | .record r => .record (toSuperseded n t r)
        | y => y } }

theorem rewriteQueued_moveReaders (s : State) (f : Slot → Slot) :
    rewriteQueued (modSlot (moveReaders s n t) n f) n t =
      { s with circuits := mapAll s.circuits (Circuit.replaced n t), slots := modAt s.slots n f } := by
  simp only [rewriteQueued, modSlot, moveReaders, mapAll_mapAll]
  rfl

theorem Circuit.replaced_carried (x : Circuit) :
    (x.replaced n t).sender.carried.records = x.sender.carried.records.map (toSuperseded n t) := by
  unfold Circuit.replaced
  cases x.sender.carried <;> rfl

/-- The references of a circuit that may be to superseded versions. -/
def Circuit.held (x : Circuit) : Multiset RecRef := refsOf x.sender.carried.records + refsOf x.sender.chain

theorem Circuit.replaced_refs (x : Circuit) : refsOf (x.replaced n t).records =
    (refsOf x.queue).map (rewrittenRef n t) + x.held.map (supersededRef n t) := by
  have queue : (x.replaced n t).queue = x.queue.map (rewrite n t) := rfl
  have chain : (x.replaced n t).sender.chain = x.sender.chain.map (toSuperseded n t) := rfl
  rw [Circuit.refsOf_records, Circuit.replaced_carried, queue, chain, refsOf_mapped rewrite_ref,
    refsOf_mapped toSuperseded_ref, refsOf_mapped toSuperseded_ref, Circuit.held, Multiset.map_add]

theorem countP_map_same {p : RecRef → Prop} [DecidablePred p] {h : RecRef → RecRef} (same : ∀ f, p (h f) ↔ p f)
    (m : Multiset RecRef) : (m.map h).countP p = m.countP p := by
  rw [Multiset.countP_map, Multiset.countP_eq_card_filter]
  simp only [same]

theorem supersededRef_slot (f : RecRef) : (supersededRef n t f).slot = f.slot := by
  unfold supersededRef
  split <;> rfl

theorem rewrittenRef_slot (f : RecRef) : (rewrittenRef n t f).slot = f.slot := by
  unfold rewrittenRef
  split
  · next e => exact e.1.symm
  · rfl

/-- No record changes its slot. -/
theorem Circuit.replaced_slots (x : Circuit) (m : SlotNo) : (refsOf (x.replaced n t).records).countP (fun f => f.slot = m) =
    (refsOf x.records).countP fun f => f.slot = m := by
  rw [Circuit.replaced_refs, Multiset.countP_add, countP_map_same fun f => by rw [rewrittenRef_slot],
    countP_map_same fun f => by rw [supersededRef_slot], Circuit.refsOf_records, Multiset.countP_add]
  rfl

/-- The readers of the current version have become readers of the superseded one. -/
theorem count_supersededRef (m : SlotNo) (j : TakeNo) (l : Multiset RecRef) :
    (l.map (supersededRef n t)).count { slot := m, take := j, version := .superseded } =
      l.count { slot := m, take := j, version := .superseded } +
        if m = n ∧ j = t then l.count { slot := n, take := t, version := .current } else 0 := by
  induction l using Multiset.induction_on with
  | empty => simp
  | cons f l ih =>
    rw [Multiset.map_cons, Multiset.count_cons, ih, Multiset.count_cons, Multiset.count_cons]
    by_cases reader : f = { slot := n, take := t, version := .current }
    · subst reader
      by_cases here : m = n ∧ j = t
      · obtain ⟨rfl, rfl⟩ := here
        simp [supersededRef]
        omega
      · have : ¬ (n = m ∧ t = j) := fun e => here ⟨e.1.symm, e.2.symm⟩
        simp [supersededRef, here]
    · have same : supersededRef n t f = f := if_neg reader
      rw [same, if_neg (c := ({ slot := n, take := t, version := .current } : RecRef) = f) fun e => reader e.symm, Nat.add_zero]
      omega

/-- Queued records name current versions, so the rewriting leaves what they name. -/
theorem Circuit.Waits.queue_refs {x : Circuit} (w : x.Waits) : (refsOf x.queue).map (rewrittenRef n t) = refsOf x.queue := by
  refine (Multiset.map_congr rfl fun f mem => ?_).trans (Multiset.map_id _)
  obtain ⟨r, queued, ref⟩ := List.mem_filterMap.mp (Multiset.mem_coe.mp mem)
  obtain ⟨a, ref', current⟩ := w.queue r queued
  obtain rfl := Option.some.inj (ref.symm.trans ref')
  unfold rewrittenRef
  split
  · next e => 
    rw [← e.1, ← e.2, ← current]
    rfl
  · rfl

theorem Circuit.Waits.queue_count {x : Circuit} (w : x.Waits) (m : SlotNo) (j : TakeNo) :
    (refsOf x.queue).count { slot := m, take := j, version := .superseded } = 0 := by
  refine Multiset.count_eq_zero.mpr fun mem => ?_
  obtain ⟨r, queued, ref⟩ := List.mem_filterMap.mp (Multiset.mem_coe.mp mem)
  obtain ⟨a, ref', current⟩ := w.queue r queued
  obtain rfl := Option.some.inj (ref.symm.trans ref')
  cases current

theorem Circuit.Waits.replaced {x : Circuit} (w : x.Waits) : (x.replaced n t).Waits := by
  refine ⟨fun r mem => ?_, fun r mem => ?_⟩
  · obtain ⟨y, queued, rfl⟩ := List.mem_map.mp mem
    obtain ⟨f, ref, current⟩ := w.queue y queued
    refine ⟨rewrittenRef n t f, by rw [rewrite_ref, ref]; rfl, ?_⟩
    unfold rewrittenRef
    split
    · rfl
    · exact current
  · obtain ⟨y, suspended, rfl⟩ := List.mem_map.mp mem
    rw [toSuperseded_ref]
    simpa using w.chain y suspended

theorem Circuit.Idle.replaced {x : Circuit} (idle : x.Idle) : (x.replaced n t).Idle := by
  intro a b
  have nothing := idle a b
  simp only [Circuit.replaced, nothing]

/-- R78 step 2: the readers that are moved. -/
theorem readerCount_eq (s : State) : readerCount (reads n t .current) s =
    ∑ c : CircuitNo, s.circuits[c].held.count { slot := n, take := t, version := .current } := by
  have each (c : CircuitNo) : carriedCount (reads n t .current) s.circuits[c].sender +
      (s.circuits[c].sender.chain.filter (reads n t .current)).length =
        s.circuits[c].held.count { slot := n, take := t, version := .current } := by
    rw [carriedCount_eq, Circuit.held, Multiset.count_add, reads_eq, ← countP_refsOf, ← countP_refsOf,
      count_eq_countP_decide, count_eq_countP_decide]
  rw [readerCount, tallyOf, Fin.sum_univ_def]
  dsimp only
  rw [← List.sum_map_add]
  exact congrArg List.sum (List.map_congr_left fun c _ => each c)

/-! The slot -/

theorem supersededAt_replaceVersion {x : Slot} {k : Take} {v : Version} {c : Class} (readers : Nat)
    (take : x.takes[t] = some k) (replacement : k.replacement = some (v, c)) (j : TakeNo) :
    (replaceVersion readers t x).supersededAt j =
      if j = t then (if readers = 0 then none else some (k.current, readers)) else x.supersededAt j := by
  simp only [replaceVersion, take, replacement]
  exact supersededAt_put x t j _ _

theorem replaceVersion_blocked {x : Slot} (h : x.Blocked) (readers : Nat) (none : x.supersededAt t = none) :
    (replaceVersion readers t x).Blocked := by
  cases take : x.takes[t] with
  | none => simpa only [replaceVersion, take] using h
  | some k =>
    cases replacement : k.replacement with
    | none => simpa only [replaceVersion, take, replacement] using h
    | some p =>
      have alone : k.superseded = .none := by rwa [Slot.supersededAt, take] at none
      have sized := h.sized t k take
      have current := sized.sizes k.current (List.mem_cons_self ..)
      have replacing := sized.sizes p.1 (by simp [versionsOf, replacement])
      simp only [replaceVersion, take, replacement]
      by_cases zero : readers = 0
      · simp only [zero, if_true]
        refine h.release take rfl rfl (fun b => ?_) fun _ => ⟨fun w mem => ?_, fun some => absurd rfl some⟩
        · simp only [Take.blockCount_eq, replacement, alone, Option.map_some, Option.map_none, Option.getD_some,
            Option.getD_none, List.count_nil]
          omega
        · obtain rfl : w = p.1 := by simpa [versionsOf] using mem
          exact replacing
      · simp only [zero, if_false]
        refine h.put rfl (fun b => ?_) fun z e => ?_
        · simp only [take, blockCount, Option.map_some, Option.getD_some, Take.blockCount_eq, replacement, alone,
            Option.map_none, Option.getD_none, List.count_nil]
          omega
        · obtain rfl := Option.some.inj e
          refine ⟨fun w mem => ?_, fun some => absurd rfl some⟩
          obtain rfl | rfl : w = p.1 ∨ w = k.current := by simpa [versionsOf] using mem
          · exact replacing
          · exact current

theorem replaceVersion_core (x : Slot) (readers : Nat) : (replaceVersion readers t x).state = x.state ∧
    (replaceVersion readers t x).pendingCount = x.pendingCount := by
  unfold replaceVersion
  split
  · exact ⟨rfl, rfl⟩
  · split <;> exact ⟨rfl, rfl⟩

/-- R78, R80. -/
theorem replaceText_closes {s : State} {v : Version} (is : TakeIs n t (ReplacedBy v) s) : Closes s (replaceText s n t) := by
  refine (dropSuperseded_closes s n t).trans ?_
  have unread := dropSuperseded_unread s n t
  have none := dropSuperseded_none s n t
  obtain ⟨k, take, -, c, replacement⟩ := is.delivery (ReplacedBy.blind v) (dropSuperseded_delivery s n t)
  show Balances 0 (dropSuperseded s n t) 0 (rewriteQueued (modSlot (moveReaders (dropSuperseded s n t) n t) n _) n t)
  generalize dropSuperseded s n t = a at unread none take
  unfold takeAt at take
  let readers := readerCount (reads n t .current) a
  let u := rewriteQueued (modSlot (moveReaders a n t) n (replaceVersion readers t)) n t
  have whole : u = { a with
      circuits := mapAll a.circuits (Circuit.replaced n t), slots := modAt a.slots n (replaceVersion readers t) } :=
    rewriteQueued_moveReaders a _
  have circuit (c : CircuitNo) : u.circuits[c] = a.circuits[c].replaced n t := by
    rw [whole]
    exact mapAll_get _ _ c
  have slot (m : SlotNo) : u.slots[m] = if m = n then replaceVersion readers t a.slots[n] else a.slots[m] := by
    rw [whole]
    split
    · next e =>
      rw [e]
      exact modAt_same _ n _
    · next e => exact modAt_other _ _ e
  have slots (m : SlotNo) : (outstanding u).countP (fun f => f.slot = m) = (outstanding a).countP fun f => f.slot = m := by
    rw [outstanding, countP_sum, outstanding, countP_sum]
    exact Finset.sum_congr rfl fun c _ => by rw [circuit, Circuit.replaced_slots]
  refine ⟨fun b => ⟨fun m => ?_, fun m => ?_, fun c => ?_⟩, fun b r => ⟨fun m j => ?_, fun m j v i => ?_, fun c => ?_⟩,
    fun b m => ?_⟩
  · have counted := b.counts m
    rw [add_zero] at counted ⊢
    rw [slots, ← counted, slot]
    split
    · next e => rw [(replaceVersion_core _ _).2, e]
    · rfl
  · rw [slot]
    split
    · intro free
      rw [(replaceVersion_core _ _).1] at free
      exact absurd (b.free n free) (ne_freed_of_take take)
    · exact b.free m
  · rw [circuit]
    exact (b.idle c).replaced
  · have counted := r.counts m j
    have each (c : CircuitNo) : (refsOf u.circuits[c].records).count { slot := m, take := j, version := .superseded } =
        (refsOf a.circuits[c].records).count { slot := m, take := j, version := .superseded } +
          if m = n ∧ j = t then a.circuits[c].held.count { slot := n, take := t, version := .current } else 0 := by
      have w := r.waits c
      rw [circuit, Circuit.replaced_refs, w.queue_refs, Multiset.count_add, w.queue_count, count_supersededRef,
        Circuit.refsOf_records, Multiset.count_add, w.queue_count, Nat.zero_add, Nat.zero_add]
      rfl
    have total : (outstanding u).count { slot := m, take := j, version := .superseded } =
        (outstanding a).count { slot := m, take := j, version := .superseded } + if m = n ∧ j = t then readers else 0 := by
      rw [outstanding, Multiset.count_sum', Finset.sum_congr rfl fun c _ => each c, Finset.sum_add_distrib, outstanding,
        Multiset.count_sum']
      refine congrArg _ ?_
      split
      · exact (readerCount_eq a).symm
      · exact Finset.sum_const_zero
    rw [add_zero] at counted ⊢
    rw [total, slot]
    by_cases e : m = n
    · subst e
      rw [if_pos rfl, supersededAt_replaceVersion readers take replacement]
      by_cases e : j = t
      · subst e
        simp only [unread, and_self, if_true, Nat.zero_add]
        split
        · next zero => exact zero.symm
        · rfl
      · rw [if_neg e, if_neg fun both => e both.2, Nat.add_zero]
        exact counted
    · rw [if_neg e, if_neg fun both => e both.1, Nat.add_zero]
      exact counted
  · rw [slot]
    split
    · rw [supersededAt_replaceVersion readers take replacement]
      split
      · split
        · exact fun e => nomatch e
        · next zero =>
          intro e
          cases e
          exact Nat.one_le_iff_ne_zero.mpr zero
      · exact r.positive n j v i
    · exact r.positive m j v i
  · rw [circuit]
    exact (r.waits c).replaced
  · rw [slot]
    split
    · exact replaceVersion_blocked (b n) readers none
    · exact b m

end Replace

end Sys2Proof.Machine
namespace Sys2Proof.Machine

open Sys2Proof

/-! ### The end of a take (R71, R78, R81) -/

theorem slotToFront_balanced (s : State) (n : SlotNo) : Balanced s (slotToFront s n) := .of_eq rfl rfl

theorem storeSubstitute_closes {s : State} {n : SlotNo} {t : TakeNo} {v : Version} (is : TakeIs n t (ReplacedBy v) s) :
    Closes s (storeSubstitute s n t) := by
  obtain ⟨k, take, ended⟩ := replaceText_ends is
  have stored : TakeIs n t Storable (replaceText s n t) := ⟨k, take, .inr ended.replacement⟩
  unfold storeSubstitute
  simp only [take]
  split
  · have released : Balanced (replaceText s n t) (modTake (replaceText s n t) n t fun x => { x with state := .released }) :=
      modTake_balanced_versions (fun _ _ => ⟨rfl, rfl, rfl⟩)
        fun x here sized some => absurd ((storable_of_take stored here).replacement sized) some
    exact (replaceText_closes is).trans (released.trans (makeFor_balanced _ n t _ _ _)).closes
  · exact (replaceText_closes is).trans (gate_balanced stored).closes

theorem takeLeft_balanced (s : State) (n : SlotNo) (t : TakeNo) (cut : Bool) : Balanced s (takeLeft s n t cut) := by
  have ended : Balanced s (if cut then endCut s n t else s) := by
    split
    · exact endCut_balanced s n t
    · exact .refl s
  unfold takeLeft
  refine (slotToFront_balanced _ n).after (Balanced.after ?_ ended)
  exact modTake_balanced_versions (fun _ _ => ⟨rfl, rfl, rfl⟩) fun _ _ _ _ => rfl

theorem Take.ended_replacement_none {k : Take} (h : k.replacement = none) (cut : Bool) : (k.ended cut).replacement = none := by
  unfold Take.ended
  split
  · exact withFilling_replacement_none.mpr h
  · exact h

theorem takeEnds_closes (s : State) (n : SlotNo) (t : TakeNo) (cut : Bool) : Closes s (takeEnds s n t cut) := by
  cases take : takeAt s n t with
  | none =>
    unfold takeEnds
    simp only [take]
    exact .refl s
  | some k =>
    have left := takeAt_takeLeft take cut
    have before := (takeLeft_balanced s n t cut).closes
    cases replacement : k.replacement with
    | none =>
      rw [takeEnds_first take replacement]
      exact before.trans (gate_balanced ⟨_, left, .inr (Take.ended_replacement_none replacement cut)⟩).closes
    | some r =>
      rw [takeEnds_substitute take replacement]
      exact before.trans (storeSubstitute_closes ⟨_, left, rfl, r.2, Take.ended_replacement replacement cut⟩)

/-! ### A slot emptied or allocated (R58, R64, R65) -/

theorem supersededAt_none {x : Slot} (h : x.takes = Slot.freed.takes) (t : TakeNo) : x.supersededAt t = none := by
  rw [Slot.supersededAt, h]
  simp [Slot.freed]

/-- A slot that no record names is emptied, or allocated anew. -/
theorem modSlot_vacated {g : Multiset RecRef} {s : State} {n : SlotNo} {f : Slot → Slot}
    (unnamed : Books g s → s.slots[n].pendingCount = 0) (takes : (f s.slots[n]).takes = Slot.freed.takes)
    (map : (f s.slots[n]).blockMap = Slot.freed.blockMap) (pending : (f s.slots[n]).pendingCount = 0)
    (free : (f s.slots[n]).state = .free → f s.slots[n] = Slot.freed) : Balances g s g (modSlot s n f) := by
  refine modSlot_balances (fun _ _ _ => rfl) (fun b => ?_) (fun _ => free) (fun b _ t => ?_) (fun _ _ t v m e => ?_)
    fun _ => Slot.freed_blocked.same takes map
  · rw [pending, ← b.counts n, unnamed b]
  · have none : (outstanding s + g).countP (fun f => f.slot = n) = 0 := (b.counts n).symm.trans (unnamed b)
    rw [supersededAt_none takes]
    symm
    rw [readersTold, Option.map_none, Option.getD_none, Multiset.count_eq_zero]
    exact fun mem => Multiset.countP_eq_zero.mp none _ mem rfl
  · rw [supersededAt_none takes] at e
    cases e

/-- R65: the slot that is allocated is FREE, or evictable, so no record names it. -/
theorem slotToAllocate_unnamed {g : Multiset RecRef} {s : State} {n : SlotNo} (slot : slotToAllocate s = some n)
    (b : Books g s) : s.slots[n].pendingCount = 0 := by
  unfold slotToAllocate leastRecent at slot
  split at slot
  · next found =>
    cases slot
    have free := List.mem_of_getLast? found
    rw [List.mem_filter] at free
    rw [b.free n (of_decide_eq_true free.2)]
    rfl
  · have out := List.mem_of_getLast? slot
    rw [List.mem_filter] at out
    have evictable := out.2
    unfold Sys2Proof.Machine.evictable at evictable
    rw [Bool.and_eq_true] at evictable
    exact of_decide_eq_true evictable.2

theorem withLast_books (x : Slot) (h : CopyHeader) : (withLast x h).pendingCount = x.pendingCount ∧
    (withLast x h).blockMap = x.blockMap := by
  unfold withLast
  split <;> exact ⟨rfl, rfl⟩

theorem openFirst_books (l : LineNo) (h : CopyHeader) (x : Slot) : (openFirst l h x).pendingCount = x.pendingCount ∧
    (openFirst l h x).blockMap = x.blockMap := by
  unfold openFirst
  dsimp only
  obtain ⟨pending, map⟩ := withLast_books
    { (if (presentTakes x).isEmpty then { x with category := some h.category, slug := h.slug } else x : Slot) with
      takes := put (if (presentTakes x).isEmpty then { x with category := some h.category, slug := h.slug } else x : Slot).takes
        h.take (some (firstTake l h)) } h
  rw [pending, map]
  split <;> exact ⟨rfl, rfl⟩

theorem firstTake_sized (l : LineNo) (h : CopyHeader) : (firstTake l h).Sized := by
  refine ⟨fun v mem => ?_, fun some => absurd rfl some⟩
  obtain rfl : v = Version.empty := by simpa [versionsOf, firstTake] using mem
  rfl

/-- R67: a first arrival is opened. -/
theorem openFirst_balanced {s : State} {n : SlotNo} {h : CopyHeader} (l : LineNo) (story : s.slots[n].state = .occupied)
    (absent : takeAt s n h.take = none) : Balanced s (modSlot s n (openFirst l h)) := by
  obtain ⟨state, -, -, takes⟩ := openFirst_same l h s.slots[n]
  obtain ⟨pending, map⟩ := openFirst_books l h s.slots[n]
  refine modSlot_balanced pending (fun _ free => ?_) (fun t => ?_) fun blocked => blocked.put takes (fun b => ?_) fun k e => ?_
  · rw [state, story] at free
    cases free
  · unfold takeAt at absent
    rw [Slot.supersededAt, takes, Slot.supersededAt]
    by_cases e : t = h.take
    · rw [e, put_same, absent]
      rfl
    · rw [put_other _ _ e]
  · unfold takeAt at absent
    rw [map, absent]
    rfl
  · obtain rfl := Option.some.inj e
    exact firstTake_sized l h

theorem openSubstitute_books (l : LineNo) (h : CopyHeader) (x : Slot) :
    (openSubstitute l h x).pendingCount = x.pendingCount ∧ (openSubstitute l h x).blockMap = x.blockMap := withLast_books _ h

/-- R68: a substitute is opened. -/
theorem openSubstitute_balanced {s : State} {n : SlotNo} {h : CopyHeader} {k : Take} (l : LineNo)
    (take : takeAt s n h.take = some k) (stored : storedTake k = true) :
    Balanced s (modSlot s n (openSubstitute l h)) := by
  unfold takeAt at take
  obtain ⟨state, -, -, takes⟩ := openSubstitute_same l h s.slots[n]
  obtain ⟨pending, map⟩ := openSubstitute_books l h s.slots[n]
  have takes : (openSubstitute l h s.slots[n]).takes = put s.slots[n].takes h.take (some (openedOver l h k)) := by
    rw [takes, modAt, take]
    rfl
  refine modSlot_balanced pending (fun freed free => ?_) (fun t => ?_) fun blocked => ?_
  · exact absurd (freed (state ▸ free)) (ne_freed_of_take take)
  · rw [Slot.supersededAt, takes, Slot.supersededAt]
    by_cases e : t = h.take
    · rw [e, put_same, take]
      rfl
    · rw [put_other _ _ e]
  · have sized := blocked.sized h.take k take
    have alone : k.replacement = none := Storable.replacement (.inl stored) sized
    refine blocked.put takes (fun b => ?_) fun x e => ?_
    · rw [map, take]
      simp only [blockCount, Option.map_some, Option.getD_some, Take.blockCount_eq, openedOver, alone, Option.map_none,
        Option.getD_none]
      rfl
    · obtain rfl := Option.some.inj e
      refine ⟨fun v mem => ?_, fun _ => .inl rfl⟩
      simp only [versionsOf, openedOver, Option.map_some, Option.toList_some, List.mem_cons, List.mem_append,
        List.not_mem_nil, or_false] at mem
      obtain mem | rfl | mem := mem
      · exact sized.sizes v (by simp [versionsOf, mem])
      · rfl
      · exact sized.sizes v (by simp only [versionsOf, List.mem_cons, List.mem_append]; exact .inr (.inr mem))

theorem handOver_closes (s : State) (l : LineNo) (h : CopyHeader) : Closes s (handOver s l h).1 := by
  unfold handOver
  split
  · split
    · exact ((raise_balanced s _ _).trans (modLine_balanced _ l _)).closes
    · next n slot =>
      have vacated : Closes s (modSlot s n fun _ => { Slot.freed with state := .occupied, key := some h.key }) :=
        modSlot_vacated (slotToAllocate_unnamed slot) rfl rfl rfl fun e => nomatch e
      have here : (allocate s n h.key).slots[n] = { Slot.freed with state := .occupied, key := some h.key } :=
        modAt_same _ n _
      refine (vacated.trans (slotToFront_balanced _ n).closes).trans (openFirst_balanced l ?_ ?_).closes
      · exact (congrArg Slot.state here :)
      · refine (congrArg (fun x : Slot => x.takes[h.take]) here).trans ?_
        simp [Slot.freed]
  · next n found =>
    split
    · exact ((raise_balanced s _ _).trans (modLine_balanced _ l _)).closes
    · split
      · next absent => exact (openFirst_balanced l (lookup_some found).1 absent).closes
      · next k take =>
        split
        · next sub =>
          rw [Bool.and_eq_true] at sub
          exact (openSubstitute_balanced l take sub.2).closes
        · exact (modLine_balanced _ l _).closes

end Sys2Proof.Machine
/-! ## The books of every command (O53 to O55)

Framers and lines, circuits out of service, slots cleared, the requests, and the step. -/
namespace Sys2Proof.Machine

open Sys2Proof

/-! ### Messages and framers -/

theorem dropMessage_balanced (s : State) : Balanced s (dropMessage s) := by
  unfold dropMessage
  split
  · exact modMgmt_balanced s _
  · exact (placeReply_balanced s _).trans (modMgmt_balanced _ _)

theorem messageClosed_balanced (s : State) : Balanced s (messageClosed s) := by
  have executing : Balanced s (modMgmt s fun m => { m with buffer := .executing }) := modMgmt_balanced s _
  unfold messageClosed
  dsimp only
  split
  · exact (modMgmt_balanced _ _).after executing
  · split
    · exact (modMgmt_balanced _ _).after ((placeReply_balanced _ _).after executing)
    · split
      · exact (modMgmt_balanced _ _).after ((placeReply_balanced _ _).after ((raise_balanced _ _ _).after executing))
      · exact (modMgmt_balanced _ _).after executing

theorem passOn_balanced (s : State) (l : LineNo) (h : House) : Balanced s (passOn s l h) := by
  unfold passOn
  dsimp only
  split
  · split
    · exact writeChar_balanced s _ _ h
    · exact .refl s
  · split
    · exact modMgmt_balanced s _
    · split
      · exact .refl s
      · exact modMgmt_balanced s _
  · exact .refl s

theorem passSlashes_balanced (s : State) (l : LineNo) (j : Nat) : Balanced s (passSlashes s l j) := by
  induction j generalizing s with
  | zero => exact .refl s
  | succ j ih => exact (passOn_balanced s l _).trans (ih _)

theorem endMessageCut_closes (s : State) (l : LineNo) : Closes s (endMessageCut s l) := by
  have slashes := (passSlashes_balanced s l s.lines[l].framer.held).closes
  unfold endMessageCut
  dsimp only
  split
  · split
    · exact slashes.trans (takeEnds_closes _ _ _ true)
    · exact slashes
  · exact slashes.trans (dropMessage_balanced _).closes
  · split
    · exact .refl s
    · exact (dropMessage_balanced s).closes
  · exact .refl s

section OneLine

variable (s : State) (l : LineNo)

theorem modFramer_balanced (f : Framer → Framer) : Balanced s (modFramer s l f) := modLine_balanced s l _

theorem modLineCounters_balanced (f : LineCounters → LineCounters) : Balanced s (modLineCounters s l f) :=
  modLine_balanced s l _

theorem toHunt_balanced : Balanced s (toHunt s l) := modFramer_balanced s l _

theorem toDiscard_balanced (b : Bool) : Balanced s (toDiscard s l b) := modFramer_balanced s l _

theorem framerAbandons_closes : Closes s (framerAbandons s l) :=
  (endMessageCut_closes s l).trans (toHunt_balanced _ l).closes

theorem askBuffer_balanced : Balanced s (askBuffer s l).1 := by
  unfold askBuffer
  split
  · exact .of_eq rfl rfl
  · exact (modLineCounters_balanced s l _).trans (placeReply_balanced _ _)

theorem takeOpening_balanced (k : MessageKind) : Balanced s (takeOpening s l k) := by
  have taken (f g) : Balanced s (modFramer (modLineCounters s l g) l f) :=
    (modLineCounters_balanced s l g).trans (modFramer_balanced _ l f)
  unfold takeOpening
  dsimp only
  split
  · exact (taken _ _).trans (modFramer_balanced _ l _)
  · split
    · exact ((taken _ _).trans (askBuffer_balanced _ l)).trans (modFramer_balanced _ l _)
    · exact ((taken _ _).trans (askBuffer_balanced _ l)).trans (toDiscard_balanced _ l _)

theorem huntChar_balanced (h : House) : Balanced s (huntChar s l h) := by
  unfold huntChar
  dsimp only
  split
  · split
    · exact modLineCounters_balanced s l _
    · exact modFramer_balanced s l _
  · split
    · exact takeOpening_balanced s l _
    · split
      · exact takeOpening_balanced s l _
      · exact (modFramer_balanced s l _).trans (modLineCounters_balanced _ l _)

theorem headerFault_balanced (b : Bool) :
    Balanced s (copyHeaderFault s l b) ∧ Balanced s (managementHeaderFault s l b) :=
  ⟨((raise_balanced s _ _).trans (modLineCounters_balanced _ l _)).trans (toDiscard_balanced _ l b),
    ((raise_balanced s _ _).trans (dropMessage_balanced _)).trans (toDiscard_balanced _ l b)⟩

theorem headerEnds_closes : Closes s (headerEnds s l) := by
  unfold headerEnds
  dsimp only
  split
  · split
    · exact (headerFault_balanced s l true).1.closes
    · unfold handCopyHeader
      dsimp only
      split
      · exact (handOver_closes s l _).trans (modFramer_balanced _ l _).closes
      · exact (handOver_closes s l _).trans (toDiscard_balanced _ l _).closes
  · split
    · exact (headerFault_balanced s l true).2.closes
    · exact ((modMgmt_balanced s _).trans (modFramer_balanced _ l _)).closes

theorem headerChar_closes (h : House) : Closes s (headerChar s l h) := by
  unfold headerChar
  split
  · exact headerEnds_closes s l
  · split
    · exact .refl s
    · split
      · exact (modFramer_balanced s l _).closes
      · unfold headerFault
        split
        · exact (headerFault_balanced s l false).1.closes
        · exact (headerFault_balanced s l false).2.closes

theorem takeClosing_closes : Closes s (takeClosing s l) := by
  have hunting := (toHunt_balanced s l).closes
  unfold takeClosing
  dsimp only
  split
  · split
    · exact hunting.trans (takeEnds_closes _ _ _ false)
    · exact hunting
  · exact hunting.trans (messageClosed_balanced _).closes
  · exact hunting

theorem decide27_balanced (j : Nat) (h : House) : Balanced s (decide27 s l j h) :=
  ((passSlashes_balanced s l j).trans (passOn_balanced _ l h)).trans (modFramer_balanced _ l _)

end OneLine

section Between

variable {between : State → State} (comes : ∀ s, Closes s (between s))

include comes

theorem openingInBody_closes (s : State) (l : LineNo) (k : MessageKind) : Closes s (openingInBody between s l k) := by
  have cut := (modFramer_balanced s l fun f => { f with held := 0 }).closes.trans (endMessageCut_closes _ l)
  unfold openingInBody
  dsimp only
  split
  · exact (cut.trans (comes _)).trans (takeOpening_balanced _ l k).closes
  · exact cut.trans (takeOpening_balanced _ l k).closes

theorem bodyChar_closes (s : State) (l : LineNo) (h : House) : Closes s (bodyChar between s l h) := by
  unfold bodyChar
  dsimp only
  split
  · split
    · exact (modFramer_balanced s l _).closes
    · exact ((passOn_balanced s l h).trans (modFramer_balanced _ l _)).closes
  · split
    · split
      · exact (modFramer_balanced s l _).closes
      · exact (decide27_balanced s l 1 h).closes
    · split
      · exact openingInBody_closes comes s l _
      · split
        · exact openingInBody_closes comes s l _
        · split
          · exact takeClosing_closes s l
          · exact (decide27_balanced s l 2 h).closes

theorem framerChar_closes (s : State) (l : LineNo) (h : House) : Closes s (framerChar between s l h) := by
  unfold framerChar
  split
  · exact (huntChar_balanced s l h).closes
  · exact headerChar_closes s l h
  · exact bodyChar_closes comes s l h
  · exact bodyChar_closes comes s l h
  · exact bodyChar_closes comes s l h
  · exact .refl s

theorem goodCharacter_closes (s : State) (l : LineNo) (code : LineCode) : Closes s (goodCharacter between s l code) := by
  have received : Closes s (receiveCode between s l code) := by
    unfold receiveCode
    dsimp only
    split
    · exact (modLine_balanced s l _).closes.trans (framerChar_closes comes _ l _)
    · exact (modLine_balanced s l _).closes
  exact received.trans ((modLine_balanced _ l _).trans (modLine_balanced _ l _)).closes

end Between

/-! ### Characters, breaks, silence and lines set afresh -/

theorem openedByAnother_closes (l : LineNo) (s : State) (i : Instr) : Closes s (openedByAnother l s i) := by
  unfold openedByAnother
  split
  · dsimp only
    split
    · exact goodCharacter_closes .refl s _ _
    · exact .refl s
  · exact .refl s

theorem betweenDropAndRequest_closes (l : LineNo) (s : State) : Closes s (betweenDropAndRequest l s) := by
  have taken : Balanced s { s with meanwhile := s.meanwhile.tail } := .of_eq rfl rfl
  exact taken.closes.trans (foldl_closes _ (openedByAnother_closes l) _ _)

theorem badCharacter_closes (s : State) (l : LineNo) (code : LineCode) : Closes s (badCharacter s l code) :=
  (framerChar_closes .refl s l _).trans ((((modLineCounters_balanced _ l _).trans (raise_balanced _ _ _)).trans
    (modLine_balanced _ l _)).trans (modLine_balanced _ l _)).closes

theorem characterArrives_closes (l : LineNo) (v : BitVec 7) (m : Bool) (s : State) :
    Closes s (characterArrives l v m s) := by
  unfold characterArrives
  dsimp only
  split
  · split
    · exact goodCharacter_closes (betweenDropAndRequest_closes l) s l _
    · exact badCharacter_closes s l _
  · exact .refl s

theorem breakBegins_closes (l : LineNo) (s : State) : Closes s (breakBegins l s) := by
  unfold breakBegins
  dsimp only
  split
  · exact (((modLine_balanced s l _).trans (raise_balanced _ _ _)).closes.trans
      (framerAbandons_closes _ l)).trans ((modFramer_balanced _ l _).trans (modLine_balanced _ l _)).closes
  · exact .refl s

theorem breakEnds_balanced (l : LineNo) (s : State) : Balanced s (breakEnds l s) := by
  unfold breakEnds
  dsimp only
  split
  · exact ((modLine_balanced s l _).trans (toHunt_balanced _ l)).trans (modLine_balanced _ l _)
  · exact .refl s

theorem lineSilent_balanced (l : LineNo) (s : State) : Balanced s (lineSilent l s) := by
  unfold lineSilent
  split
  · exact .refl s
  · exact (modLine_balanced s l _).trans (raise_balanced _ _ _)

theorem falseStart_balanced (l : LineNo) (s : State) : Balanced s (falseStart l s) := by
  unfold falseStart
  split
  · exact modLine_balanced s l _
  · exact .refl s

theorem setLine_closes (s : State) (l : LineNo) (d : LineDesc) : Closes s (setLine s l d) :=
  (((modLine_balanced s l _).trans (modLine_balanced _ l _)).closes.trans (framerAbandons_closes _ l)).trans
    (modLine_balanced _ l _).closes

theorem lineOut_closes (s : State) (l : LineNo) : Closes s (lineOut s l) :=
  (((modLine_balanced s l _).trans (modLine_balanced _ l _)).trans (modLine_balanced _ l _)).closes.trans
    (framerAbandons_closes _ l)

end Sys2Proof.Machine
namespace Sys2Proof.Machine

open Sys2Proof

/-! ### Circuits out of service, and changes of all circuits (R109, R154, R175, R194, R198) -/

theorem raiseStanding_balanced (s : State) : Balanced s (raiseStanding s) := by
  unfold raiseStanding
  split
  · exact raise_balanced s _ _
  · exact .refl s

/-- A circuit changed in nothing that its records are told by. -/
theorem modCircuit_balanced (s : State) (c : CircuitNo) {f : Circuit → Circuit}
    (same : SameTraffic s.circuits[c] (f s.circuits[c])) : Balanced s (modCircuit s c f) := by
  have here : (modCircuit s c f).circuits[c] = f s.circuits[c] := modAt_same _ c f
  refine fun g => oneCircuit_balances rfl (fun ne => modAt_other _ f ne) (fun _ => ?_) ?_ ?_ <;> rw [here]
  · rw [same.refs]
  · exact same.idle
  · exact same.waits

theorem disposeRecord_balances (c : CircuitNo) (s : State) (r : Rec) (g : Multiset RecRef) :
    Balances (refsOf [r] + g) s g (disposeRecord c s r) :=
  ((returnRecord_balances s r g).trans (countMissed_balanced _ c g)).trans (raiseMissed_balanced _ c _ g)

theorem disposeRecords_balances (c : CircuitNo) (rs : List Rec) (s : State) (g : Multiset RecRef) :
    Balances (refsOf rs + g) s g (rs.foldl (disposeRecord c) s) := by
  induction rs generalizing s with
  | nil =>
    rw [refsOf_nil, zero_add]
    exact .refl g s
  | cons r rs ih =>
    rw [refsOf_cons, add_assoc]
    exact (disposeRecord_balances c s r _).trans (ih _)

theorem disposeCarried_balances (s : State) (c : CircuitNo) (x : Carried) (g : Multiset RecRef) :
    Balances (refsOf x.records + g) s g (disposeCarried s c x) := by
  have none : refsOf [] + g = g := by rw [refsOf_nil, zero_add]
  cases x with
  | nothing => exact none.symm ▸ .refl g s
  | report => exact none.symm ▸ .refl g s
  | record r =>
    unfold disposeCarried
    dsimp only
    split
    · exact returnRecord_balances s r g
    · exact disposeRecord_balances c s r g

theorem circuitOut_balanced (s : State) (c : CircuitNo) : Balanced s (circuitOut s c) := by
  let x := s.circuits[c]
  let f : Circuit → Circuit := fun y => { y with queue := [], sender := { y.sender.halted with chain := [] } }
  have here : (modCircuit s c f).circuits[c] = f x := modAt_same _ c f
  intro g
  have emptied : Balances g s (refsOf x.sender.carried.records + (refsOf (x.sender.chain ++ x.queue) + g)) (modCircuit s c f) := by
    refine oneCircuit_balances rfl (fun ne => modAt_other _ f ne) (fun _ => ?_) (fun _ => ?_) fun _ => ?_ <;> rw [here]
    · have none : (f x).records = [] := rfl
      rw [none, refsOf_nil, Circuit.refsOf_records, refsOf_append]
      abel
    · exact idle_of_nothing rfl
    · exact ⟨fun _ mem => absurd mem List.not_mem_nil, fun _ mem => absurd mem List.not_mem_nil⟩
  exact (emptied.trans (disposeCarried_balances _ c _ _)).trans (disposeRecords_balances c _ _ g)

theorem markUnsound_closes (s : State) : Closes s (markUnsound s) := by
  refine (foldl_closes _ lineOut_closes _ s).trans (foldl_balanced _ (fun u c => ?_) _ _).closes
  exact (modCircuit_balanced u c ⟨rfl, rfl, rfl, id⟩).trans (circuitOut_balanced _ c)

theorem tableCheck_closes (s : State) : Closes s (tableCheck s) := by
  have told {w : State} (marked : Closes s w) (m : Mode) : Closes s { w with mode := m } :=
    marked.trans (Balanced.of_eq (s := w) (u := { w with mode := m }) rfl rfl).closes
  unfold tableCheck
  dsimp only
  split
  · exact (told (markUnsound_closes s) _).trans (raise_balanced _ _ _).closes
  · exact told (markUnsound_closes s) _

theorem changeMode_balanced (s : State) (f : Mode → Mode) : Balanced s (changeMode s f) := by
  have changed : Balanced s { s with mode := f s.mode } := .of_eq rfl rfl
  exact changed.trans (foldl_balanced _ (tellDegree_balanced s.mode) (List.finRange 16) _)

theorem setCircuit_balanced (s : State) (c : CircuitNo) (d : CircuitDesc) : Balanced s (setCircuit s c d) := by
  have set : Balanced s (modCircuit s c fun x => { x with desc := d, outOfService := false }) :=
    modCircuit_balanced s c ⟨rfl, rfl, rfl, id⟩
  unfold setCircuit
  dsimp only
  split
  · exact set.trans (circuitOut_balanced _ c)
  · exact set.trans (workTest_balanced _ c)

theorem moveReports_balanced (s : State) (c : CircuitNo) : Balanced s (moveReports s c) := by
  unfold moveReports
  dsimp only
  split
  · exact .refl s
  · have cut (x : Sender) : (cutReport x).state = x.state ∧ (cutReport x).carried = x.carried ∧ (cutReport x).chain = x.chain := by
      unfold cutReport
      split <;> exact ⟨rfl, rfl, rfl⟩
    obtain ⟨state, carried, chain⟩ := cut s.circuits[s.mgmt.reportCircuit].sender
    have moved : Balanced s (modMgmt s fun m => { m with reportCircuit := c }) := modMgmt_balanced s _
    exact ((moved.trans (modSender_balanced_state state carried chain)).trans (tellWithheldMore_balanced _ _)).trans
      (offer_balanced _ c)

theorem runOnEnds_balanced (c : CircuitNo) (s : State) : Balanced s (runOnEnds c s) := by
  unfold runOnEnds
  split
  · next pausing => exact modSender_emptied (idle_pausing (.inr (.inr pausing))) rfl rfl
  · exact .refl s

/-- Every circuit changes, and none in what its records name. -/
theorem mapCircuits_balanced (s : State) {f : Circuit → Circuit} (refs : ∀ x, refsOf (f x).records = refsOf x.records)
    (idle : ∀ x, x.Idle → (f x).Idle) (waits : ∀ x, x.Waits → (f x).Waits) :
    Balanced s { s with circuits := mapAll s.circuits f } := by
  have circuit (c : CircuitNo) : (mapAll s.circuits f)[c] = f s.circuits[c] := mapAll_get _ _ c
  refine fun g => .of_circuits rfl (fun _ => congrArg (· + g) ?_) (fun c => ?_) fun c => ?_
  · exact Finset.sum_congr rfl fun c _ => by rw [circuit, refs]
  · show _ → (mapAll s.circuits f)[c].Idle
    rw [circuit]
    exact idle _
  · show _ → (mapAll s.circuits f)[c].Waits
    rw [circuit]
    exact waits _

theorem ageQueues_balanced (s : State) : Balanced s (ageQueues s) := by
  refine mapCircuits_balanced s (fun x => ?_) (fun _ => id) fun x w => ⟨fun r mem => ?_, w.chain⟩
  · have aged : refsOf (x.queue.map aged) = refsOf x.queue := refsOf_map (g := aged) (fun _ => rfl) _
    rw [Circuit.refsOf_records, Circuit.refsOf_records]
    exact congrArg (· + _) aged
  · obtain ⟨y, queued, rfl⟩ := List.mem_map.mp mem
    exact w.queue y queued

theorem zeroCounters_balanced (s : State) : Balanced s (zeroCounters s) := by
  have zeroed : Balanced s { s with circuits := mapAll s.circuits fun x =>
      { x with sender := { x.sender with completed := 0, missed := 0, breaksIn := 0 } } } :=
    mapCircuits_balanced s (fun _ => rfl) (fun _ => id) fun _ w => ⟨w.queue, w.chain⟩
  exact zeroed.trans (.of_eq rfl rfl)

theorem slotToTail_balanced (s : State) (n : SlotNo) : Balanced s (slotToTail s n) := .of_eq rfl rfl

/-! ### Slots cleared (R63, R86 to R88, R202) -/

/-- Nothing stands in the slots, and no record on the circuits. -/
theorem Balances.of_cleared {g : Multiset RecRef} {s u : State} (slots : ∀ n : SlotNo, u.slots[n] = Slot.freed)
    (records : ∀ c : CircuitNo, u.circuits[c].queue = [] ∧ u.circuits[c].sender.carried = .nothing ∧
      u.circuits[c].sender.chain = []) : Balances g s 0 u := by
  have none : outstanding u = 0 := Finset.sum_eq_zero fun c _ => by
    obtain ⟨queue, carried, chain⟩ := records c
    rw [Circuit.records, queue, carried, chain]
    rfl
  refine ⟨fun _ => ⟨fun n => ?_, fun n _ => slots n, fun c => idle_of_nothing (records c).2.1⟩,
    fun _ _ => ⟨fun n t => ?_, fun n t v m sup => ?_, fun c => ⟨fun r mem => ?_, fun r mem => ?_⟩⟩,
    fun _ n => slots n ▸ Slot.freed_blocked⟩
  · rw [slots, none]
    rfl
  · rw [slots, none, supersededAt_none rfl]
    rfl
  · rw [slots, supersededAt_none rfl] at sup
    cases sup
  · rw [(records c).1] at mem
    cases mem
  · rw [(records c).2.2] at mem
    cases mem

theorem restart_closes (s : State) : Closes s (restart s) := by
  refine .of_cleared (fun n => by simp [restart]) fun c => ?_
  have circuit : (restart s).circuits[c] = s.circuits[c].restarted := mapAll_get _ _ c
  rw [circuit]
  exact ⟨rfl, rfl, rfl⟩

theorem pinReset_closes (s : State) : Closes s (pinReset s) := by
  refine .of_cleared (fun n => by simp [pinReset, State.reset]) fun c => ?_
  have circuit : (pinReset s).circuits[c] = Circuit.reset c := tabulate_get _ c
  rw [circuit]
  exact ⟨rfl, rfl, rfl⟩

/-- Slots that no record names are freed; the others stay. -/
theorem Balances.of_freed {g : Multiset RecRef} {s u : State} (circuits : u.circuits = s.circuits)
    (slots : ∀ n : SlotNo, u.slots[n] = s.slots[n] ∨ u.slots[n] = Slot.freed ∧ (Books g s → s.slots[n].pendingCount = 0)) :
    Balances g s g u := by
  have same : outstanding u = outstanding s := by simp only [outstanding, circuits]
  have unnamed {n : SlotNo} (b : Books g s) (zero : s.slots[n].pendingCount = 0) (t : TakeNo) (v : ReadVersion) :
      (outstanding s + g).count { slot := n, take := t, version := v } = 0 :=
    Multiset.count_eq_zero.mpr fun mem => Multiset.countP_eq_zero.mp ((b.counts n).symm.trans zero) _ mem rfl
  refine ⟨fun b => ⟨fun n => ?_, fun n => ?_, fun c => ?_⟩, fun b r => ⟨fun n t => ?_, fun n t v m => ?_, fun c => ?_⟩,
    fun b n => ?_⟩
  · rw [same, ← b.counts n]
    obtain e | ⟨e, zero⟩ := slots n
    · rw [e]
    · rw [e, zero b]
      rfl
  · obtain e | ⟨e, -⟩ := slots n
    · rw [e]
      exact b.free n
    · exact fun _ => e
  · rw [circuits]
    exact b.idle c
  · rw [same]
    obtain e | ⟨e, zero⟩ := slots n
    · rw [e]
      exact r.counts n t
    · rw [e, unnamed b (zero b), supersededAt_none rfl]
      rfl
  · obtain e | ⟨e, -⟩ := slots n
    · rw [e]
      exact r.positive n t v m
    · rw [e, supersededAt_none rfl]
      exact fun e => nomatch e
  · rw [circuits]
    exact r.waits c
  · obtain e | ⟨e, -⟩ := slots n
    · rw [e]
      exact b n
    · rw [e]
      exact Slot.freed_blocked

theorem evictable_unnamed {x : Slot} (h : evictable x = true) : x.pendingCount = 0 := by
  unfold evictable at h
  rw [Bool.and_eq_true] at h
  exact of_decide_eq_true h.2

/-- R87. -/
theorem clearUnheld_closes (s : State) :
    Closes s { s with slots := mapAll s.slots fun x => if evictable x then Slot.freed else x, recency := recencyReset } := by
  refine .of_freed rfl fun n => ?_
  have slot : (mapAll s.slots fun x => if evictable x then Slot.freed else x)[n] =
      if evictable s.slots[n] then Slot.freed else s.slots[n] := mapAll_get _ _ n
  by_cases out : evictable s.slots[n] = true
  · exact .inr ⟨slot.trans (if_pos out), fun _ => evictable_unnamed out⟩
  · exact .inl (slot.trans (if_neg out))

theorem namesAny_eq : namesAny = refers fun _ => true := by
  funext r
  cases h : r.ref <;> simp [namesAny, refers, h]

/-- R88. -/
theorem clearStore_closes (s : State) : Closes s (clearStore s) := by
  have gone : outstanding (pullRecords namesAny .storeCut s) = 0 := by
    have none := pullRecords_none (fun _ => true) .storeCut s
    rw [← namesAny_eq] at none
    rw [← Multiset.card_eq_zero, ← none]
    simp [Multiset.countP_eq_card_filter]
  have pulled : Closes s (pullRecords namesAny .storeCut s) := (pullRecords_balanced _ _ s).closes
  unfold clearStore
  generalize pullRecords namesAny .storeCut s = w at gone pulled ⊢
  refine pulled.trans (.of_freed rfl fun n => .inr ⟨by simp, fun b => ?_⟩)
  rw [b.counts n, gone]
  rfl

/-- R86. -/
theorem withdrawStory_closes {s : State} {n : SlotNo} (occupied : s.slots[n].state = .occupied) :
    Closes s (withdrawStory s n) := by
  have pulled : Closes s (pullRecords (names n) .withdrawal s) := (pullRecords_balanced _ _ s).closes
  have occupied := (pullRecords_delivery (names n) .withdrawal s).occupied occupied
  have gone := pullRecords_none (fun f => decide (f.slot = n)) .withdrawal s
  rw [← names_eq] at gone
  simp only [decide_eq_true_eq] at gone
  unfold withdrawStory
  dsimp only
  generalize pullRecords (names n) .withdrawal s = w at pulled occupied gone ⊢
  have switched : Balanced w (switchFramers (fun m => m = n) w) := .of_eq rfl rfl
  have unnamed (b : Books 0 (switchFramers (fun m => m = n) w)) :
      (switchFramers (fun m => m = n) w).slots[n].pendingCount = 0 := by
    rw [b.counts n, add_zero]
    exact gone
  refine (pulled.trans switched.closes).trans ?_
  split
  · refine modSlot_vacated unnamed rfl rfl rfl fun free => ?_
    have occupied : (switchFramers (fun m => m = n) w).slots[n].state = .occupied := occupied
    exact nomatch occupied.symm.trans free
  · have freed : Closes (switchFramers (fun m => m = n) w) (modSlot (switchFramers (fun m => m = n) w) n fun _ => Slot.freed) :=
      modSlot_vacated unnamed rfl rfl rfl fun _ => rfl
    exact freed.trans (slotToTail_balanced _ n).closes

end Sys2Proof.Machine
namespace Sys2Proof.Machine

open Sys2Proof

/-! ### Requests that leave the store and the circuits

In each branch such a request is refused, or changes a table of another block. -/

section Tables

variable (ops : List Text) (s : State)

theorem bodyBankkind_balanced : Balanced s (bodyBankkind ops s).1 := by
  unfold bodyBankkind withBank
  repeat' split
  all_goals exact .of_eq rfl rfl

theorem bodyBankin_balanced : Balanced s (bodyBankin ops s).1 := by
  unfold bodyBankin withBank bankinEntries
  dsimp only
  repeat' split
  all_goals exact .of_eq rfl rfl

theorem bodyBankout_balanced : Balanced s (bodyBankout ops s).1 := by
  unfold bodyBankout withBank
  dsimp only
  repeat' split
  all_goals exact .of_eq rfl rfl

theorem bodyBanksub_balanced : Balanced s (bodyBanksub ops s).1 := by
  unfold bodyBanksub withBank
  dsimp only
  repeat' split
  all_goals exact .of_eq rfl rfl

theorem bodyBankshift_balanced : Balanced s (bodyBankshift ops s).1 := by
  unfold bodyBankshift withBank
  dsimp only
  repeat' split
  all_goals exact .of_eq rfl rfl

theorem bodyLinebank_balanced : Balanced s (bodyLinebank ops s).1 := by
  unfold bodyLinebank
  repeat' split
  all_goals exact .of_eq rfl rfl

theorem bodyRoute_balanced : Balanced s (bodyRoute ops s).1 := by
  unfold bodyRoute
  repeat' split
  all_goals exact .of_eq rfl rfl

theorem bodyRouteoff_balanced : Balanced s (bodyRouteoff ops s).1 := by
  unfold bodyRouteoff
  repeat' split
  all_goals exact .of_eq rfl rfl

theorem membership_balanced (f : Bool → Bool) : Balanced s (membership f ops s).1 := by
  unfold membership
  repeat' split
  all_goals exact .of_eq rfl rfl

theorem bodyDefaults_balanced : Balanced s (bodyDefaults ops s).1 := by
  unfold bodyDefaults
  repeat' split
  all_goals exact .of_eq rfl rfl

theorem bodyFlashset_balanced : Balanced s (bodyFlashset ops s).1 := by
  unfold bodyFlashset
  repeat' split
  all_goals exact .of_eq rfl rfl

theorem bodyPrecedence_balanced : Balanced s (bodyPrecedence ops s).1 := by
  unfold bodyPrecedence
  dsimp only
  repeat' split
  all_goals exact .of_eq rfl rfl

theorem bodyQueue_balanced : Balanced s (bodyQueue ops s).1 := by
  unfold bodyQueue
  repeat' split
  all_goals exact .of_eq rfl rfl

theorem bodyStory_balanced : Balanced s (bodyStory ops s).1 := by
  unfold bodyStory withStory
  repeat' split
  all_goals exact .of_eq rfl rfl

theorem bodyStatus_balanced : Balanced s (bodyStatus ops s).1 := by
  unfold bodyStatus noOperands
  repeat' split
  all_goals exact .of_eq rfl rfl

theorem bodyRestart_balanced : Balanced s (bodyRestart ops s).1 := by
  unfold bodyRestart noOperands
  repeat' split
  all_goals exact .of_eq rfl rfl

theorem bodyEvents_balanced : Balanced s (bodyEvents ops s).1 := by
  unfold bodyEvents
  repeat' split
  all_goals exact .of_eq rfl rfl

theorem bodyClearevent_balanced : Balanced s (bodyClearevent ops s).1 := by
  unfold bodyClearevent
  repeat' split
  all_goals exact .of_eq rfl rfl

theorem bodyCounts_balanced : Balanced s (bodyCounts ops s).1 := by
  unfold bodyCounts
  repeat' split
  all_goals exact .of_eq rfl rfl

theorem bodyTakewait_balanced : Balanced s (bodyTakewait ops s).1 := by
  unfold bodyTakewait
  repeat' split
  all_goals exact .of_eq rfl rfl

end Tables

/-! ### Service, setup and event requests -/

section Service

variable (ops : List Text) (s : State)

theorem noOperands_closes {r : State × Answer} (h : Closes s r.1) : Closes s (noOperands ops s r).1 := by
  unfold noOperands
  split
  · exact h
  · exact .refl s

theorem Balanced.atOnce {s u : State} (h : Balanced s u) : Balanced s (atOnce u) := h.trans (atOnce_balanced u)

theorem done_closes {t : State} {r : List Text} (h : Closes s t) : Closes s (done t r).1 := h

theorem done_balanced {t : State} {r : List Text} (h : Balanced s t) : Balanced s (done t r).1 := h

theorem setMask_balanced (k : EventKind) (on : Bool) : Balanced s (setMask s k on) := by
  unfold setMask
  split
  · exact .refl s
  · split
    · exact modEntry_balanced s _ _
    · dsimp only
      split
      · exact (modEntry_balanced s _ _).trans (alertDue_balanced _ k)
      · exact modEntry_balanced s _ _

theorem bodyMask_balanced : Balanced s (bodyMask ops s).1 := by
  unfold bodyMask
  split
  · split
    · exact done_balanced s (setMask_balanced s _ _).atOnce
    · exact .refl s
  · exact .refl s

theorem setAlerts_balanced (on : Bool) : Balanced s (setAlerts s on) := by
  have alert (u : State) (k : EventKind) : Balanced u (alertIfLatched u k) := by
    unfold alertIfLatched
    split
    · exact alertDue_balanced u k
    · exact .refl u
  have set (b : Bool) : Balanced s { s with latch := { s.latch with alertMode := b } } := .of_eq rfl rfl
  unfold setAlerts
  split
  · exact .refl s
  · split
    · exact (set true).trans (foldl_balanced _ alert allKinds _)
    · exact .of_eq rfl rfl

theorem bodyAlerts_balanced : Balanced s (bodyAlerts ops s).1 := by
  unfold bodyAlerts
  split
  · split
    · exact done_balanced s (setAlerts_balanced s _).atOnce
    · exact .refl s
  · exact .refl s

theorem bodyClearcounts_balanced : Balanced s (bodyClearcounts ops s).1 := by
  unfold bodyClearcounts
  split
  · exact .refl s
  · exact zeroCounters_balanced s

theorem bodyQuiet_closes : Closes s (bodyQuiet ops s).1 := by
  refine noOperands_closes ops s ?_
  split
  · exact .refl s
  · exact done_closes s (changeMode_balanced s _).atOnce.closes

theorem bodyWake_closes : Closes s (bodyWake ops s).1 := by
  refine noOperands_closes ops s ?_
  split
  · exact done_closes s ((tableCheck_closes s).trans (changeMode_balanced _ _).atOnce.closes)
  · exact .refl s

theorem bodyFull_closes : Closes s (bodyFull ops s).1 := by
  refine noOperands_closes ops s ?_
  split
  · exact .refl s
  · exact done_closes s (changeMode_balanced s _).atOnce.closes

theorem bodyReduced_balanced : Balanced s (bodyReduced ops s).1 := by
  unfold bodyReduced
  split
  · split
    · split
      · split
        · exact done_balanced s (changeMode_balanced s _).atOnce
        · exact .refl s
      · exact .refl s
    · exact .refl s
  · exact .refl s

theorem bodyLine_closes : Closes s (bodyLine ops s).1 := by
  unfold bodyLine
  split
  · split
    · split
      · exact .refl s
      · split
        · exact .refl s
        · unfold lineJudged
          split
          · exact .refl s
          · split
            · exact done_closes s ((setLine_closes s _ _).trans (atOnce_balanced _).closes)
            · exact .refl s
    · exact .refl s
  · exact .refl s

theorem bodyCircuit_balanced : Balanced s (bodyCircuit ops s).1 := by
  unfold bodyCircuit
  split
  · split
    · unfold circuitJudged
      split
      · exact .refl s
      · split
        · split
          · exact done_balanced s (setCircuit_balanced s _ _).atOnce
          · exact .refl s
        · exact .refl s
    · exact .refl s
  · exact .refl s

theorem bodyReportto_balanced : Balanced s (bodyReportto ops s).1 := by
  unfold bodyReportto
  split
  · split
    · exact .refl s
    · split
      · exact .refl s
      · exact done_balanced s (moveReports_balanced s _).atOnce
  · exact .refl s

/-! ### Store requests -/

theorem withStory_closes {f : SlotNo → State × Answer} (h : ∀ n, s.slots[n].state = .occupied → Closes s (f n).1) :
    Closes s (withStory ops s f).1 := by
  unfold withStory
  split
  · exact .refl s
  · split
    · exact .refl s
    · next n found => exact h n (lookup_some found).1

theorem bare_closes {r : State × Answer} (h : Closes s r.1) : Closes s (bare ops s r).1 := by
  unfold bare
  split
  · exact h
  · exact .refl s

theorem holdSlot_balanced {s : State} {n : SlotNo} (occupied : s.slots[n].state = .occupied) : Balanced s (holdSlot s n) := by
  have held : Balanced s (modSlot s n fun x => { x with held := true }) :=
    modSlot_balanced rfl (fun _ free => nomatch occupied.symm.trans free) (fun _ => rfl) fun h => h.same rfl rfl
  exact held.trans (slotToFront_balanced _ n)

theorem allocate_closes {s : State} {n : SlotNo} (slot : slotToAllocate s = some n) (k : Key) : Closes s (allocate s n k) := by
  have vacated : Closes s (modSlot s n fun _ => { Slot.freed with state := .occupied, key := some k }) :=
    modSlot_vacated (slotToAllocate_unnamed slot) rfl rfl rfl fun e => nomatch e
  exact vacated.trans (slotToFront_balanced _ n).closes

theorem allocate_slot (s : State) (n : SlotNo) (k : Key) :
    (allocate s n k).slots[n] = { Slot.freed with state := .occupied, key := some k } := modAt_same _ n _

theorem bodyHold_closes : Closes s (bodyHold ops s).1 := by
  unfold bodyHold
  split
  · exact .refl s
  · split
    · next n found =>
      split
      · exact (holdSlot_balanced (lookup_some found).1).closes
      · exact .refl s
    · split
      · split
        · next n slot =>
          exact (allocate_closes slot _).trans (holdSlot_balanced (congrArg Slot.state (allocate_slot s n _) :)).closes
        · exact .refl s
      · exact .refl s

theorem unheld_balanced {s : State} {n : SlotNo} : Balanced s (modSlot s n fun x => { x with held := false }) :=
  modSlot_balanced_state rfl rfl (fun freed => by rw [freed]; rfl) (fun _ => rfl) fun h => h.same rfl rfl

theorem bodyUnhold_closes : Closes s (bodyUnhold ops s).1 :=
  withStory_closes ops s fun n _ => (unheld_balanced.trans (slotToFront_balanced _ n)).closes

/-- Every slot changes, and none in what its records, its superseded versions and its blocks are told by. -/
theorem mapSlots_balanced (s : State) {f : Slot → Slot} (core : ∀ x, (f x).pendingCount = x.pendingCount ∧
    (f x).state = x.state ∧ (f x).takes = x.takes ∧ (f x).blockMap = x.blockMap) (freed : f Slot.freed = Slot.freed) :
    Balanced s { s with slots := mapAll s.slots f } := by
  have slot (n : SlotNo) : (mapAll s.slots f)[n] = f s.slots[n] := mapAll_get _ _ n
  have told (x : Slot) (t : TakeNo) : (f x).supersededAt t = x.supersededAt t := by
    rw [Slot.supersededAt, (core x).2.2.1, Slot.supersededAt]
  refine fun g => ⟨fun b => ⟨fun n => ?_, fun n free => ?_, b.idle⟩, fun b r => ⟨fun n t => ?_, fun n t v m => ?_, r.waits⟩,
    fun b n => ?_⟩
  · exact ((congrArg Slot.pendingCount (slot n)).trans (core _).1).trans (b.counts n)
  · rw [slot, (core _).2.1] at free
    rw [slot, b.free n free, freed]
  · rw [slot, told]
    exact r.counts n t
  · rw [slot, told]
    exact r.positive n t v m
  · rw [slot]
    exact (b n).same (core _).2.2.1 (core _).2.2.2

theorem bodyUnholdall_closes : Closes s (bodyUnholdall ops s).1 :=
  bare_closes ops s (mapSlots_balanced s (f := fun x => { x with held := false }) (fun _ => ⟨rfl, rfl, rfl, rfl⟩) rfl).closes

theorem repeatPair_balanced (n : SlotNo) (cls : Class) (a : Repeating) (p : TakeNo × CircuitNo) :
    BalancedFor n a.state (repeatPair n cls a p).state := by
  have gap : BalancedFor n a.state (inGap takenBeforeTurn a.state) :=
    ⟨inGap_delivery _ takenBeforeTurn_delivery _, fun _ => inGap_balanced takenBeforeTurn_balanced _⟩
  refine gap.trans ?_
  unfold repeatPair repeatTurn
  dsimp only
  split
  · exact .refl n _
  · split
    · exact .refl n _
    · split
      · exact makeFree_balanced (a := { slot := n, take := p.1, version := .current }) rfl rfl rfl _ p.2
      · exact ⟨(raise_report _ _ _).delivery, fun _ => raise_balanced _ _ _⟩

theorem repeatPairs_balanced (n : SlotNo) (cls : Class) (ps : List (TakeNo × CircuitNo)) (a : Repeating) :
    BalancedFor n a.state (ps.foldl (repeatPair n cls) a).state := by
  induction ps generalizing a with
  | nil => exact .refl n _
  | cons p ps ih => exact (repeatPair_balanced n cls a p).trans (ih _)

theorem bodyRepeat_balanced : Balanced s (bodyRepeat ops s).1 := by
  unfold bodyRepeat
  split
  · exact .refl s
  · split
    · split
      · exact .refl s
      · split
        · exact .refl s
        · next n found =>
          have made (cls ps) := (repeatPairs_balanced n cls ps { state := s, queued := 0, unmade := 0 }).balanced
            (storied_of_occupied (lookup_some found).1)
          exact done_balanced s ((made _ _).trans (slotToFront_balanced _ n)).atOnce
    · exact .refl s

theorem bodyWithdraw_closes : Closes s (bodyWithdraw ops s).1 :=
  withStory_closes ops s fun _ occupied => withdrawStory_closes occupied

theorem bodyClearunheld_closes : Closes s (bodyClearunheld ops s).1 := bare_closes ops s (clearUnheld_closes s)

theorem bodyClearstore_closes : Closes s (bodyClearstore ops s).1 := bare_closes ops s (clearStore_closes s)

end Service

/-! ### Every command -/

theorem waitExpires_balanced (n : SlotNo) (t : TakeNo) (s : State) : Balanced s (waitExpires n t s) := by
  unfold waitExpires
  split
  · next waiting =>
    obtain ⟨k, take, -⟩ := storable_of_waiting waiting
    exact expireWait_balanced take
  · exact .refl s

theorem executionEnds_closes (s : State) : Closes s (executionEnds s) := by
  have restarted : Closes s (if s.mgmt.restartDue then restart s else s) := by
    split
    · exact restart_closes s
    · exact .refl s
  unfold executionEnds
  split
  · dsimp only
    split
    · exact restarted.trans ((placeReply_balanced _ _).trans (modMgmt_balanced _ _)).closes
    · exact restarted.trans (modMgmt_balanced _ _).closes
  · exact .refl s

theorem runEvent_closes {f : State → State} {s u : State} (h : Closes s (f s)) (e : runEvent f s = .next u) : Closes s u := by
  unfold runEvent at e
  split at e <;> cases e
  · exact .refl s
  · exact h.trans (atOnce_balanced _).closes

theorem runBareEvent_closes {f : State → State} {s u : State} (h : Closes s (f s)) (e : runBareEvent f s = .next u) :
    Closes s u := by
  unfold runBareEvent at e
  split at e <;> cases e
  · exact .refl s
  · exact h

theorem runRequest_closes {verb : String} {lvl : State → Nat} {body : State → State × Answer} {ops : List Text}
    {s u : State} (h : ∀ s, Closes s (body s).1) (e : runRequest verb lvl body ops s = .next u) : Closes s u := by
  have popped : Closes s (popLine s) := (modMgmt_balanced s _).closes
  have judged : Closes (popLine s) (judge (lvl s) body (popLine s)).1 := by
    unfold judge
    split
    · exact (raiseStanding_balanced _).atOnce.closes
    · exact h _
  unfold runRequest at e
  split at e <;> cases e
  · exact (popped.trans judged).trans (modMgmt_balanced _ _).closes
  · exact .refl s

/-- The same, of a request that balances. -/
theorem runRequest_balances {verb : String} {lvl : State → Nat} {body : State → State × Answer} {ops : List Text}
    {s u : State} (h : ∀ s, Balanced s (body s).1) (e : runRequest verb lvl body ops s = .next u) : Closes s u :=
  runRequest_closes (fun s => (h s).closes) e

/-- R195: no motor runs and nothing is sent while the reset input is low. -/
theorem resetAsserted_balanced (s : State) : Balanced s { s with
    resetLow := true
    circuits := mapAll s.circuits fun x => { x with sender := { x.sender with motor := false, sending := none } } } := by
  have halted : Balanced s { s with
      circuits := mapAll s.circuits fun x => { x with sender := { x.sender with motor := false, sending := none } } } :=
    mapCircuits_balanced s (fun _ => rfl) (fun _ => id) fun _ w => ⟨w.queue, w.chain⟩
  exact halted.trans (.of_eq rfl rfl)

/-- Whatever the command, the books and the blocks of the store stay right. -/
theorem exec_closes (i : Instr) {s u : State} (h : exec i s = .next u) : Closes s u := by
  cases i with
  | resetAsserted => cases h; exact (resetAsserted_balanced s).closes
  | resetReleased => cases h; exact pinReset_closes s
  | characterArrives l v m => exact runEvent_closes (characterArrives_closes l v m s) h
  | breakWatchExpires l => exact runEvent_closes (breakBegins_closes l s) h
  | markingIntervalExpires l => exact runBareEvent_closes (breakEnds_balanced l s).closes h
  | silenceTimerExpires l => exact runEvent_closes (lineSilent_balanced l s).closes h
  | unknownRequest v ops =>
    change execUnknownRequest v ops s = _ at h
    unfold execUnknownRequest at h
    split at h <;> cases h
    · exact ((modMgmt_balanced s _).trans (modMgmt_balanced (popLine s) _)).closes
    · exact .refl s
  | line ops => exact runRequest_closes (lvl := fun _ => 3) (bodyLine_closes ops) h
  | linebank ops => exact runRequest_balances (lvl := fun _ => 2) (bodyLinebank_balanced ops) h
  | circuit ops => exact runRequest_balances (lvl := fun _ => 3) (bodyCircuit_balanced ops) h
  | bankkind ops => exact runRequest_balances (lvl := fun _ => 3) (bodyBankkind_balanced ops) h
  | bankin ops => exact runRequest_balances (lvl := fun _ => 3) (bodyBankin_balanced ops) h
  | bankout ops => exact runRequest_balances (lvl := fun _ => 3) (bodyBankout_balanced ops) h
  | banksub ops => exact runRequest_balances (lvl := fun _ => 3) (bodyBanksub_balanced ops) h
  | bankshift ops => exact runRequest_balances (lvl := fun _ => 3) (bodyBankshift_balanced ops) h
  | route ops => exact runRequest_balances (bodyRoute_balanced ops) h
  | routeoff ops => exact runRequest_balances (bodyRouteoff_balanced ops) h
  | mark ops => exact runRequest_balances (fun s => membership_balanced ops s _) h
  | unmark ops => exact runRequest_balances (fun s => membership_balanced ops s _) h
  | flip ops => exact runRequest_balances (fun s => membership_balanced ops s _) h
  | test ops => exact runRequest_balances (lvl := fun _ => 1) (fun s => membership_balanced ops s _) h
  | defaults ops => exact runRequest_balances (lvl := fun _ => 2) (bodyDefaults_balanced ops) h
  | flashset ops => exact runRequest_balances (lvl := fun _ => 2) (bodyFlashset_balanced ops) h
  | precedence ops => exact runRequest_balances (lvl := fun _ => 3) (bodyPrecedence_balanced ops) h
  | queue ops => exact runRequest_balances (lvl := fun _ => 1) (bodyQueue_balanced ops) h
  | hold ops => exact runRequest_closes (lvl := fun _ => 1) (bodyHold_closes ops) h
  | unhold ops => exact runRequest_closes (lvl := fun _ => 1) (bodyUnhold_closes ops) h
  | unholdall ops => exact runRequest_closes (lvl := fun _ => 2) (bodyUnholdall_closes ops) h
  | repeatTakes ops => exact runRequest_balances (lvl := fun _ => 1) (bodyRepeat_balanced ops) h
  | withdraw ops => exact runRequest_closes (lvl := fun _ => 2) (bodyWithdraw_closes ops) h
  | clearunheld ops => exact runRequest_closes (lvl := fun _ => 3) (bodyClearunheld_closes ops) h
  | clearstore ops => exact runRequest_closes (lvl := fun _ => 3) (bodyClearstore_closes ops) h
  | takewait ops => exact runRequest_balances (lvl := fun _ => 3) (bodyTakewait_balanced ops) h
  | story ops => exact runRequest_balances (lvl := fun _ => 1) (bodyStory_balanced ops) h
  | reportto ops => exact runRequest_balances (lvl := fun _ => 3) (bodyReportto_balanced ops) h
  | status ops => exact runRequest_balances (lvl := fun _ => 1) (bodyStatus_balanced ops) h
  | quiet ops => exact runRequest_closes (lvl := fun _ => 2) (bodyQuiet_closes ops) h
  | wake ops => exact runRequest_closes (lvl := fun _ => 2) (bodyWake_closes ops) h
  | full ops => exact runRequest_closes (lvl := fun _ => 2) (bodyFull_closes ops) h
  | reduced ops => exact runRequest_balances (lvl := fun _ => 2) (bodyReduced_balanced ops) h
  | restart ops => exact runRequest_balances (lvl := fun _ => 3) (bodyRestart_balanced ops) h
  | events ops => exact runRequest_balances (lvl := fun _ => 1) (bodyEvents_balanced ops) h
  | clearevent ops => exact runRequest_balances (lvl := fun _ => 2) (bodyClearevent_balanced ops) h
  | mask ops => exact runRequest_balances (lvl := fun _ => 2) (bodyMask_balanced ops) h
  | alerts ops => exact runRequest_balances (lvl := fun _ => 2) (bodyAlerts_balanced ops) h
  | counts ops => exact runRequest_balances (lvl := fun _ => 1) (bodyCounts_balanced ops) h
  | clearcounts ops => exact runRequest_balances (lvl := fun _ => 2) (bodyClearcounts_balanced ops) h
  | executionEnds => exact runEvent_closes (executionEnds_closes s) h
  | waitTimerExpires n t => exact runEvent_closes (waitExpires_balanced n t s).closes h
  | secondAgeing => exact runBareEvent_closes (ageQueues_balanced s).closes h
  | motorStartTimerExpires c => exact runEvent_closes (motorReady_balanced c s).closes h
  | runOnTimerExpires c => exact runBareEvent_closes (runOnEnds_balanced c s).closes h
  | characterSent c => exact runEvent_closes (f := fun t => charSent t c) (charSent_balanced s c).closes h
  | markToSpaceTransition l => cases h; exact (modLine_balanced s l _).closes
  | spaceToMarkTransition l => cases h; exact (modLine_balanced s l _).closes
  | falseStart l => exact runBareEvent_closes (falseStart_balanced l s).closes h

theorem step_closes {s u : State} (h : step s = .next u) : Closes s u := by
  unfold step at h
  split at h
  · cases h
    exact .refl s
  · next c rest _ =>
    have taken : Balanced s { s with pending := rest } := .of_eq rfl rfl
    exact taken.closes.trans (exec_closes c h)

/-- Settles O53: with nothing in hand the pending counts are what the books say, and every command closes the books. -/
theorem pendingCountsAreExact : Obligations.PendingCountsAreExact := by
  unfold Obligations.PendingCountsAreExact
  exact fun s t sound h => pendingSound_iff.mpr ((step_closes h).books (pendingSound_iff.mp sound))

/-- Settles O54: likewise of the reader counts, given the pending counts before the step. -/
theorem supersededReadersAreExact : Obligations.SupersededReadersAreExact := by
  unfold Obligations.SupersededReadersAreExact
  exact fun s t pending readers h =>
    readersSound_iff.mpr ((step_closes h).readers (pendingSound_iff.mp pending) (readersSound_iff.mp readers))

/-- Settles O55: every command leaves each slot with its blocks in one version or free. -/
theorem blocksStandInOneVersion : Obligations.BlocksStandInOneVersion := by
  unfold Obligations.BlocksStandInOneVersion
  exact fun s t sound h => versionsSound_iff.mpr ((step_closes h).blocks (versionsSound_iff.mp sound))

end Sys2Proof.Machine
/-! ## Store requests (O32 to O35)

R82 to R88: each request's body, case by case, and what it leaves of the part. -/

namespace Sys2Proof.Machine

open Sys2Proof

/-! ### HOLD, UNHOLD and UNHOLDALL (R83, R84) -/

section Story

variable {t : Text} {k : Key} {n : SlotNo} {s : State}

theorem withStory_form {f : SlotNo → State × Answer} (form : keyForm t = none) : withStory [t] s f = refuse s .form := by
  simp only [withStory, keyOperand, form]

theorem withStory_absent {f : SlotNo → State × Answer} (form : keyForm t = some k) (missing : lookup s k = none) :
    withStory [t] s f = refuse s .absent := by
  simp only [withStory, keyOperand, form, missing]

theorem withStory_found {f : SlotNo → State × Answer} (form : keyForm t = some k) (found : lookup s k = some n) :
    withStory [t] s f = f n := by
  simp only [withStory, keyOperand, form, found]

theorem bodyHold_form (form : keyForm t = none) : bodyHold [t] s = refuse s .form := by
  simp only [bodyHold, keyOperand, form]

theorem bodyHold_found (form : keyForm t = some k) (found : lookup s k = some n)
    (room : s.slots[n].held = true ∨ heldCount s < 32) : bodyHold [t] s = done (holdSlot s n) [slotTok n] := by
  have room : (s.slots[n].held || decide (heldCount s < Config.heldLimit)) = true := by
    rwa [Bool.or_eq_true, decide_eq_true_eq]
  simp only [bodyHold, keyOperand, form, found, room, if_true]

theorem bodyHold_full (form : keyForm t = some k) (found : lookup s k = some n) (unheld : s.slots[n].held = false)
    (full : 32 ≤ heldCount s) : bodyHold [t] s = refuse s .full := by
  have none : (s.slots[n].held || decide (heldCount s < Config.heldLimit)) = false := by
    rw [unheld, Bool.false_or]
    exact decide_eq_false (Nat.not_lt.mpr full)
  simp only [bodyHold, keyOperand, form, found, none, Bool.false_eq_true, if_false]

theorem bodyHold_noRoom (form : keyForm t = some k) (missing : lookup s k = none)
    (full : 32 ≤ heldCount s ∨ slotToAllocate s = none) : bodyHold [t] s = refuse s .full := by
  simp only [bodyHold, keyOperand, form, missing]
  split
  · next room => 
    rw [full.resolve_left (Nat.not_le.mpr room)]
  · rfl

theorem bodyHold_allocates (form : keyForm t = some k) (missing : lookup s k = none) (room : heldCount s < 32)
    (slot : slotToAllocate s = some n) : bodyHold [t] s = done (holdSlot (allocate s n k) n) [slotTok n] := by
  have room : heldCount s < Config.heldLimit := room
  simp only [bodyHold, keyOperand, form, missing, room, if_true, slot]

end Story

theorem toFront_toFront (n : SlotNo) (l : List SlotNo) : toFront n (toFront n l) = toFront n l := by
  simp [toFront, List.filter_filter]

/-- R65, R83: the slot that is allocated and held. -/
theorem holdSlot_allocate (s : State) (n : SlotNo) (k : Key) : holdSlot (allocate s n k) n =
    { s with
      slots := put s.slots n { Slot.freed with state := .occupied, key := some k, held := true }
      recency := toFront n s.recency } := by
  simp only [holdSlot, allocate, slotToFront, modSlot, modAt_modAt, toFront_toFront]
  rfl

/-- Settles O32: each row of R83's table, and R84, is a branch of a body. -/
theorem holdAndUnholdAStory : Obligations.HoldAndUnholdAStory := by
  unfold Obligations.HoldAndUnholdAStory
  refine ⟨fun s t turn => ⟨fun form => runRequest_refused turn (bodyHold_form form), fun k form => ⟨?_, ?_, ?_, ?_⟩⟩,
    fun s => ⟨fun t turn => ⟨fun form => runRequest_refused turn (withStory_form form), fun k form => ⟨?_, ?_⟩⟩, ?_⟩⟩
  · exact fun n found room => runRequest_done turn (bodyHold_found (s := popLine s) form found room)
  · exact fun n found unheld full => runRequest_refused turn (bodyHold_full (s := popLine s) form found unheld full)
  · exact fun missing full => runRequest_refused turn (bodyHold_noRoom (s := popLine s) form missing full)
  · intro n missing room slot
    exact runRequest_done turn ((bodyHold_allocates (s := popLine s) form missing room slot).trans
      (congrArg (done · [slotTok n]) (holdSlot_allocate (popLine s) n k)))
  · exact fun missing => runRequest_refused turn (withStory_absent (s := popLine s) form missing)
  · exact fun n found => runRequest_done turn (withStory_found (s := popLine s) form found)
  · exact fun turn => runRequest_done turn rfl

end Sys2Proof.Machine
namespace Sys2Proof.Machine

open Sys2Proof

/-! ### Records pulled (R63)

`pullRecords` told as one change of the state; what it does to the slots depends on the records and is told apart. -/

theorem unnameIn_eq (s : State) (ref : Option RecRef) : unnameIn s ref = { s with slots := (unnameIn s ref).slots } := by
  cases ref <;> rfl

theorem returnRecords_eq (rs : List Rec) (s : State) : returnRecords s rs =
    { s with freeCount := s.freeCount + rs.length, slots := (returnRecords s rs).slots } := by
  induction rs generalizing s with
  | nil => rfl
  | cons r rs ih =>
    have first : returnRecord s r = { s with freeCount := s.freeCount + 1, slots := (returnRecord s r).slots } :=
      unnameIn_eq _ r.ref
    have all : returnRecords s (r :: rs) = returnRecords (returnRecord s r) rs := rfl
    have rest := ih (returnRecord s r)
    generalize returnRecords (returnRecord s r) rs = w at all rest
    rw [all, List.length_cons, Nat.add_comm rs.length, ← Nat.add_assoc]
    refine rest.trans ?_
    rw [first]

section Pull

variable {p : Rec → Bool} {line : CutLine}

theorem detachCarried_eq (s : State) (c : CircuitNo) : detachCarried p line s c =
    { s with circuits := (detachCarried p line s c).circuits, slots := (detachCarried p line s c).slots } := by
  unfold detachCarried
  split
  · next r _ =>
    split
    · cases r.ref <;> rfl
    · rfl
  · rfl

/-- The records that one circuit gives back to the pool. -/
def Circuit.givenBack (p : Rec → Bool) (x : Circuit) : Nat := (x.queue.filter p).length + (x.sender.chain.filter p).length

theorem pullCircuit_eq (s : State) (c : CircuitNo) : pullCircuit p line s c =
    { s with
      circuits := modAt s.circuits c (Circuit.pulled p line)
      freeCount := s.freeCount + s.circuits[c].givenBack p
      slots := (pullCircuit p line s c).slots } := by
  have circuits := pullCircuit_circuits p line s c
  unfold pullCircuit at circuits ⊢
  dsimp only at circuits ⊢
  rw [detachCarried_eq, circuits, returnRecords_eq, Circuit.givenBack, ← List.length_append]
  rfl

theorem pullCircuits_eq (cs : List CircuitNo) (nodup : cs.Nodup) (s : State) : cs.foldl (pullCircuit p line) s =
    { s with
      circuits := cs.foldl (fun u c => modAt u c (Circuit.pulled p line)) s.circuits
      freeCount := s.freeCount + (cs.map fun c => s.circuits[c].givenBack p).sum
      slots := (cs.foldl (pullCircuit p line) s).slots } := by
  induction cs generalizing s with
  | nil => rfl
  | cons c cs ih =>
    obtain ⟨fresh, rest⟩ := List.nodup_cons.mp nodup
    have others (d : CircuitNo) (mem : d ∈ cs) : (pullCircuit p line s c).circuits[d] = s.circuits[d] := by
      rw [pullCircuit_circuits]
      exact modAt_other _ _ fun e => fresh (e ▸ mem)
    have counts : (cs.map fun d => (pullCircuit p line s c).circuits[d].givenBack p) =
        cs.map fun d => s.circuits[d].givenBack p := List.map_congr_left fun d mem => by rw [others d mem]
    have later := ih rest (pullCircuit p line s c)
    rw [counts, pullCircuit_circuits] at later
    have first := pullCircuit_eq (p := p) (line := line) s c
    rw [List.foldl_cons, List.foldl_cons, List.map_cons, List.sum_cons, ← Nat.add_assoc]
    refine later.trans ?_
    rw [first]

theorem pullRecords_eq (s : State) : pullRecords p line s =
    { s with
      circuits := mapAll s.circuits (Circuit.pulled p line)
      freeCount := s.freeCount + ((List.finRange 16).map fun c => (s.circuits[c].queue.filter p).length).sum +
        ((List.finRange 16).map fun c => (s.circuits[c].sender.chain.filter p).length).sum
      slots := (pullRecords p line s).slots } := by
  have all := pullCircuits_eq (p := p) (line := line) _ (List.nodup_finRange 16) s
  rw [foldl_modAt_all] at all
  simp only [Circuit.givenBack, List.sum_map_add, ← Nat.add_assoc] at all
  exact all

end Pull

/-- Only slot `n` has changed. -/
def OnlySlot (n : SlotNo) (s u : State) : Prop := ∀ m : SlotNo, m ≠ n → u.slots[m] = s.slots[m]

theorem OnlySlot.refl (n : SlotNo) (s : State) : OnlySlot n s s := fun _ _ => rfl

theorem OnlySlot.trans {n : SlotNo} {s t u : State} (h : OnlySlot n s t) (g : OnlySlot n t u) : OnlySlot n s u :=
  fun m ne => (g m ne).trans (h m ne)

theorem unnameIn_onlySlot {n : SlotNo} {r : Rec} (h : names n r = true) (s : State) : OnlySlot n s (unnameIn s r.ref) := by
  intro m ne
  cases ref : r.ref with
  | none => rfl
  | some f =>
    have slot : f.slot = n := by simpa [names, ref] using h
    exact modAt_other _ _ (slot ▸ ne)

theorem returnRecords_onlySlot {n : SlotNo} {rs : List Rec} (h : ∀ r ∈ rs, names n r = true) (s : State) :
    OnlySlot n s (returnRecords s rs) := by
  induction rs generalizing s with
  | nil => exact .refl n s
  | cons r rs ih =>
    have first : OnlySlot n s (returnRecord s r) := unnameIn_onlySlot (h r (List.mem_cons_self ..)) _
    exact first.trans (ih (fun x mem => h x (List.mem_cons_of_mem r mem)) _)

/-- R63: records that name a slot are no matter of the others. -/
theorem pullRecords_onlySlot (n : SlotNo) (line : CutLine) (s : State) : OnlySlot n s (pullRecords (names n) line s) := by
  refine foldl_keeps (OnlySlot n) (.refl n) .trans _ (fun u c => ?_) _ s
  have detached (w : State) : OnlySlot n w (detachCarried (names n) line w c) := by
    unfold detachCarried
    split
    · split
      · next named => exact unnameIn_onlySlot named _
      · exact .refl n w
    · exact .refl n w
  unfold pullCircuit
  dsimp only
  refine OnlySlot.trans ?_ (detached _)
  refine OnlySlot.trans (fun _ _ => rfl) (returnRecords_onlySlot (fun r mem => ?_) _)
  obtain mem | mem := List.mem_append.mp mem <;> exact (List.mem_filter.mp mem).2

/-! ### WITHDRAW (R86) -/

/-- R63, as O34 and O35 write it: one circuit without the records that satisfy `p`. -/
theorem Circuit.pulled_eq (p : Rec → Bool) (line : CutLine) (y : Circuit) : y.pulled p line =
    { y with
      queue := y.queue.filter fun r => !p r
      sender := { y.sender with
        chain := y.sender.chain.filter fun r => !p r
        carried := match y.sender.carried with
          | .record r => if p r then .record { r with ref := none } else .record r
          | z => z
        cutTold := match y.sender.carried with
          | .record r => if p r then some line else y.sender.cutTold
          | _ => y.sender.cutTold } } := by
  cases carried : y.sender.carried with
  | nothing => simp only [Circuit.pulled, Sender.detached, carried]
  | report => simp only [Circuit.pulled, Sender.detached, carried]
  | record r =>
    cases pulled : p r with
    | true => simp only [Circuit.pulled, Sender.detached, carried, pulled, if_true]
    | false =>
      simp only [Circuit.pulled, Sender.detached, carried, pulled, Bool.false_eq_true, if_false]

/-- R86: the slot that the story leaves. -/
def Slot.withdrawn (k : Key) (x : Slot) : Slot :=
  if x.held then { Slot.freed with state := .occupied, key := some k, held := true } else Slot.freed

theorem DeliveryOnly.key {s u : State} (h : DeliveryOnly s u) (n : SlotNo) : u.slots[n].key = s.slots[n].key :=
  Eq.trans (congrArg Slot.key (h.stories n) :) rfl

theorem emptiedHeld_of {x : Slot} {k : Key} (state : x.state = .occupied) (key : x.key = some k) :
    emptiedHeld x = { Slot.freed with state := .occupied, key := some k, held := true } := by
  rw [emptiedHeld, state, key]

/-- R86: what is left of the part once the story is withdrawn. -/
theorem withdrawStory_eq {s : State} {k : Key} {n : SlotNo} (found : lookup s k = some n) : withdrawStory s n =
    { s with
      lines := (switchFramers (fun m => m = n) s).lines
      slots := put s.slots n (s.slots[n].withdrawn k)
      recency := if s.slots[n].held then s.recency else toTail n s.recency
      freeCount := (pullRecords (names n) .withdrawal s).freeCount
      circuits := (pullRecords (names n) .withdrawal s).circuits } := by
  have pulled := pullRecords_eq (p := names n) (line := .withdrawal) s
  have only := pullRecords_onlySlot n .withdrawal s
  have delivery := pullRecords_delivery (names n) .withdrawal s
  obtain ⟨occupied, key⟩ := lookup_some found
  have slots {y : Slot} {f : Slot → Slot} (here : f (pullRecords (names n) .withdrawal s).slots[n] = y) :
      modAt (pullRecords (names n) .withdrawal s).slots n f = put s.slots n y := by
    refine array_ext fun m => ?_
    by_cases e : m = n
    · subst e
      rw [modAt_same, put_same, here]
    · rw [modAt_other _ _ e, put_other _ _ e, only m e]
  unfold withdrawStory Slot.withdrawn
  dsimp only
  cases held : s.slots[n].held with
  | true =>
    have emptied : emptiedHeld (pullRecords (names n) .withdrawal s).slots[n] =
        { Slot.freed with state := .occupied, key := some k, held := true } :=
      emptiedHeld_of (delivery.occupied occupied) ((delivery.key n).trans key)
    simp only [if_true]
    rw [← slots emptied]
    generalize pullRecords (names n) .withdrawal s = w at pulled
    rw [pulled]
    rfl
  | false =>
    simp only [Bool.false_eq_true, if_false]
    rw [← slots (f := fun _ => Slot.freed) rfl]
    generalize pullRecords (names n) .withdrawal s = w at pulled
    rw [pulled]
    rfl

end Sys2Proof.Machine
namespace Sys2Proof.Machine

open Sys2Proof

theorem switchFramers_slot_lines (n : SlotNo) (s : State) : (switchFramers (fun m => m = n) s).lines =
    mapAll s.lines fun x => match x.framer.takeRef with
      | some (m, _) => if m = n then { x with framer := { x.framer with state := .discard, takeRef := none, held := 0 } } else x
      | none => x := by
  unfold switchFramers
  dsimp only
  refine congrArg (mapAll s.lines) (funext fun x => ?_)
  cases x.framer.takeRef with
  | none => rfl
  | some r => simp only [decide_eq_true_eq]

/-- Settles O34: the records are pulled, the framers switched, and the slot is emptied or freed (`withdrawStory_eq`). -/
theorem withdrawRemovesAStory : Obligations.WithdrawRemovesAStory := by
  unfold Obligations.WithdrawRemovesAStory
  intro s t k n form found turn sum total q queued p suspended
  have toks : tallyToks (tallyOf (names n) (popLine s)) =
      [decimal q, decimal (sum fun c => carriedCount (names n) s.circuits[c].sender), decimal p] := by
    rw [queued, suspended, total]
    rfl
  refine ⟨withdrawStory (popLine s) n, ?_, ?_⟩
  · rw [← toks]
    exact runRequest_done turn (withStory_found (s := popLine s) form found)
  · have lookup : lookup (popLine s) k = some n := found
    have circuits : (pullRecords (names n) .withdrawal (popLine s)).circuits =
        mapAll s.circuits (Circuit.pulled (names n) .withdrawal) := pullRecords_circuits _ _ _
    have free : (pullRecords (names n) .withdrawal (popLine s)).freeCount = s.freeCount + q + p := by
      rw [pullRecords_eq, queued, suspended, total]
      rfl
    rw [withdrawStory_eq lookup, circuits, free, switchFramers_slot_lines, funext (Circuit.pulled_eq (names n) .withdrawal)]
    rfl

/-! ### CLEARUNHELD and CLEARSTORE (R87, R88) -/

theorem switchFramers_all_lines (s : State) : (switchFramers (fun _ => true) s).lines =
    mapAll s.lines fun x => match x.framer.takeRef with
      | some _ => { x with framer := { x.framer with state := .discard, takeRef := none, held := 0 } }
      | none => x := by
  unfold switchFramers
  dsimp only
  refine congrArg (mapAll s.lines) (funext fun x => ?_)
  cases x.framer.takeRef with
  | none => rfl
  | some r => simp only [if_true]

/-- R88: a carried record reads the store no more. -/
theorem Circuit.pulled_all_eq (line : CutLine) (y : Circuit) : y.pulled namesAny line =
    { y with
      queue := y.queue.filter fun r => !namesAny r
      sender := { y.sender with
        chain := y.sender.chain.filter fun r => !namesAny r
        carried := match y.sender.carried with
          | .record r => .record { r with ref := none }
          | z => z
        cutTold := match y.sender.carried with
          | .record r => if namesAny r then some line else y.sender.cutTold
          | _ => y.sender.cutTold } } := by
  rw [Circuit.pulled_eq]
  cases carried : y.sender.carried with
  | nothing => rfl
  | report => rfl
  | record r =>
    dsimp only
    cases reads : namesAny r with
    | true => simp only [if_true]
    | false =>
      have detached : r.ref = none := by simpa [namesAny] using reads
      simp only [Bool.false_eq_true, if_false]
      rw [← detached]

theorem clearStore_eq (s : State) : clearStore s =
    { s with
      lines := (switchFramers (fun _ => true) s).lines
      slots := Vector.replicate 40 Slot.freed
      recency := recencyReset
      freeCount := (pullRecords namesAny .storeCut s).freeCount
      circuits := (pullRecords namesAny .storeCut s).circuits } := by
  have pulled := pullRecords_eq (p := namesAny) (line := .storeCut) s
  unfold clearStore
  generalize pullRecords namesAny .storeCut s = w at pulled
  rw [pulled]
  rfl

/-- Settles O35: CLEARUNHELD is its body as it stands; CLEARSTORE pulls every record that reads the store. -/
theorem clearsEmptyTheStore : Obligations.ClearsEmptyTheStore := by
  unfold Obligations.ClearsEmptyTheStore
  refine fun s => ⟨fun turn => runRequest_done turn rfl, ?_⟩
  intro turn sum total q queued p suspended
  have toks : tallyToks (tallyOf namesAny (popLine s)) =
      [decimal q, decimal (sum fun c => carriedCount namesAny s.circuits[c].sender), decimal p] := by
    rw [queued, suspended, total]
    rfl
  have circuits : (pullRecords namesAny .storeCut (popLine s)).circuits =
      mapAll s.circuits (Circuit.pulled namesAny .storeCut) := pullRecords_circuits _ _ _
  have free : (pullRecords namesAny .storeCut (popLine s)).freeCount = s.freeCount + q + p := by
    rw [pullRecords_eq, queued, suspended, total]
    rfl
  have cleared := clearStore_eq (popLine s)
  rw [circuits, free, switchFramers_all_lines, funext (Circuit.pulled_all_eq .storeCut)] at cleared
  rw [← toks]
  exact runRequest_done turn (congrArg (done · (tallyToks (tallyOf namesAny (popLine s)))) cleared)

end Sys2Proof.Machine
namespace Sys2Proof.Machine

open Sys2Proof

/-! ### REPEAT (R85) -/

/-- What the pairs of a REPEAT have done, with nothing coming between them: a record from the pool for each one queued, and
none made any more once the pool is empty. -/
structure Repeated (n : SlotNo) (s : State) (a : Repeating) : Prop where
  delivery : DeliveryOnly s a.state
  nothing : a.state.meanwhile = []
  pool : a.state.freeCount + a.queued = s.freeCount
  slots : a.state.slots = modAt s.slots n fun y => { y with pendingCount := y.pendingCount + a.queued }
  unmade : 0 < a.unmade → a.state.freeCount = 0 ∧ (entryOf a.state .poolEmpty).latched = true

theorem Repeated.start (n : SlotNo) {s : State} (nothing : s.meanwhile = []) :
    Repeated n s { state := s, queued := 0, unmade := 0 } :=
  ⟨.refl s, nothing, rfl, (modAt_id _ _ _ rfl).symm, fun none => absurd none (Nat.lt_irrefl 0)⟩

theorem makeFree_slots (s : State) (c : CircuitNo) (n : SlotNo) (r : Rec) :
    (makeFree s c n r).slots = modAt s.slots n fun y => { y with pendingCount := y.pendingCount + 1 } :=
  (joinQueue_only _ c r).slots

theorem makeFree_freeCount (s : State) (c : CircuitNo) (n : SlotNo) (r : Rec) :
    (makeFree s c n r).freeCount = s.freeCount - 1 := (joinQueue_only _ c r).freeCount

theorem DeliveryOnly.nothing {s u : State} (h : DeliveryOnly s u) (nothing : s.meanwhile = []) : u.meanwhile = [] :=
  List.suffix_nil.mp (nothing ▸ h.tables.meanwhile)

theorem Repeated.turn {n : SlotNo} {s : State} {a : Repeating} (h : Repeated n s a) (cls : Class) (p : TakeNo × CircuitNo) :
    Repeated n s (repeatPair n cls a p) := by
  have gap : ({ a with state := inGap takenBeforeTurn a.state } : Repeating) = a := by rw [inGap_none _ _ h.nothing]
  rw [repeatPair, gap]
  unfold repeatTurn
  split
  · exact h
  · split
    · next left => exact { h with unmade := fun _ => h.unmade left }
    · next none =>
      split
      · next room =>
        have made := makeFree_delivery a.state p.2 n (freshRecord n p.1 cls .rpt [])
        refine ⟨h.delivery.trans made, made.nothing h.nothing, ?_, ?_, fun some => absurd some none⟩
        · have pool := h.pool
          dsimp only
          rw [makeFree_freeCount]
          omega
        · dsimp only
          rw [makeFree_slots, h.slots, modAt_modAt]
          rfl
      · next empty =>
        have raised := raise_report a.state .poolEmpty (.circuit p.2)
        refine ⟨h.delivery.trans raised.delivery, raised.delivery.nothing h.nothing, ?_, ?_, fun _ => ⟨?_, ?_⟩⟩
        · exact (congrArg (· + a.queued) raised.freeCount).trans h.pool
        · exact raised.slots.trans h.slots
        · exact raised.freeCount.trans (Nat.eq_zero_of_not_pos empty)
        · exact (raise_occurred a.state .poolEmpty (.circuit p.2)).1

theorem Repeated.turns {n : SlotNo} {s : State} {a : Repeating} (h : Repeated n s a) (cls : Class)
    (ps : List (TakeNo × CircuitNo)) : Repeated n s (ps.foldl (repeatPair n cls) a) := by
  induction ps generalizing a with
  | nil => exact h
  | cons p ps ih => exact ih (h.turn cls p)

/-- Whatever comes between the pairs, they make deliveries. -/
theorem repeatPairs_delivery (n : SlotNo) (cls : Class) (ps : List (TakeNo × CircuitNo)) (a : Repeating) :
    DeliveryOnly a.state (ps.foldl (repeatPair n cls) a).state := (repeatPairs_balanced n cls ps a).delivery

/-- A move of the recency list beside deliveries. -/
theorem DeliveryOnly.toFront {s u : State} (h : DeliveryOnly s u) (n : SlotNo) :
    DeliveryOnly (slotToFront s n) (slotToFront u n) :=
  { tables := { h.tables with }
    lines := h.lines
    recency := congrArg (Sys2Proof.Machine.toFront n) h.recency
    message := h.message
    stories := h.stories }

/-- R112: a sender that is STARTING or CLOSING is told of no record that joins its queue. -/
theorem joinQueue_untold {s : State} {c : CircuitNo} {r : Rec}
    (state : s.circuits[c].sender.state = .starting ∨ s.circuits[c].sender.state = .closing) :
    joinQueue s c r = modQueue s c fun q => q ++ [r] := by
  have still : (modQueue s c fun q => q ++ [r]).circuits[c].sender.state = s.circuits[c].sender.state := by
    rw [modQueue_circuit]
  unfold joinQueue tellJoined offer
  rw [still]
  obtain state | state := state <;> simp only [state]

theorem filter_finRange_eq {n : Nat} {p : Fin n → Bool} {i : Fin n} (h : ∀ j, p j = true ↔ j = i) :
    (List.finRange n).filter p = [i] := by
  have only : p = (· == i) := funext fun j => by rw [Bool.eq_iff_iff, h, beq_iff_eq]
  rw [only, List.filter_beq, List.count_eq_one_of_mem (List.nodup_finRange n) (List.mem_finRange i)]
  rfl

theorem members_single (c : CircuitNo) : members (setOf [c] : CircuitSet) = [c] :=
  filter_finRange_eq fun d => by simp [setOf]

theorem takesToRepeat_single {x : Slot} {t : TakeNo} (stored : isStored x t = true) :
    takesToRepeat x (some (t.val, t.val)) = [t] := by
  refine filter_finRange_eq fun j => ?_
  simp only [Bool.and_eq_true, decide_eq_true_eq]
  constructor
  · rintro ⟨-, low, high⟩
    exact Fin.ext (Nat.le_antisymm high low)
  · rintro rfl
    exact ⟨stored, Nat.le_refl _, Nat.le_refl _⟩

theorem bodyRepeat_found {ops : List Text} {s : State} {k : Key} {r : Option (Nat × Nat)} {l : List CircuitNo} {x : Class}
    {n : SlotNo} (form : repeatForms ops = some { key := k, range := r, circuits := l.map Fin.val, cls := x })
    (range : rangeInRange r = true) (found : lookup s k = some n) : bodyRepeat ops s = doRepeat s n r (setOf l) x := by
  simp only [bodyRepeat, form, range, if_true, forms_below, found]

/-- R85: one take and one circuit, in service and without the take queued, whose sender is STARTING or CLOSING. -/
theorem repeatPair_single {s : State} {n : SlotNo} {t : TakeNo} {c : CircuitNo} (x : Class) (nothing : s.meanwhile = [])
    (service : circuitInService s.circuits[c] = true)
    (fresh : ∀ y ∈ s.circuits[c].queue, ¬(ofTake n t y = true ∧ y.kind = .rpt)) (room : 0 < s.freeCount) :
    repeatPair n x { state := s, queued := 0, unmade := 0 } (t, c) =
      { state := makeFree s c n (freshRecord n t x .rpt []), queued := 1, unmade := 0 } := by
  have notPassed : passedOver s n t c = false := by
    unfold passedOver
    rw [service, Bool.not_true, Bool.false_or, List.any_eq_false]
    intro y mem both
    rw [Bool.and_eq_true, decide_eq_true_eq] at both
    exact fresh y mem both
  simp only [repeatPair, inGap_none _ _ nothing, repeatTurn, notPassed, Bool.false_eq_true, if_false, Nat.lt_irrefl, room,
    if_true]

/-- Settles O33: the pairs are followed by `Repeated`; for one pair the record joins the tail of a queue whose sender is not
told of it. -/
theorem repeatQueuesTakesAgain : Obligations.RepeatQueuesTakesAgain := by
  unfold Obligations.RepeatQueuesTakesAgain
  intro s ops k r l x n form range found turn
  let start : Repeating := { state := popLine s, queued := 0, unmade := 0 }
  let a := (repeatPairs (takesToRepeat s.slots[n] r) (setOf l)).foldl (repeatPair n x) start
  have body : bodyRepeat ops (popLine s) = done (atOnce (slotToFront a.state n)) [decimal a.queued, decimal a.unmade] :=
    bodyRepeat_found (s := popLine s) form range found
  refine ⟨slotToFront a.state n, a.queued, a.unmade, runRequest_done turn body,
    (repeatPairs_delivery n x _ start).toFront n, fun nothing => ?_, ?_⟩
  · have repeated : Repeated n (popLine s) a := (Repeated.start (s := popLine s) n nothing).turns x _
    exact ⟨repeated.pool, repeated.slots, repeated.unmade⟩
  · rintro t c rfl rfl stored service room nothing fresh state
    have one : a = { state := makeFree (popLine s) c n (freshRecord n t x .rpt []), queued := 1, unmade := 0 } := by
      have pairs : repeatPairs (takesToRepeat s.slots[n] (some (t.val, t.val))) (setOf [c]) = [(t, c)] := by
        rw [takesToRepeat_single stored, repeatPairs, members_single]
        rfl
      have single := repeatPair_single (s := popLine s) (t := t) x nothing service fresh room
      show List.foldl _ _ (repeatPairs _ _) = _
      rw [pairs]
      exact single
    rw [one]
    refine ⟨rfl, rfl, ?_⟩
    exact congrArg State.circuits (joinQueue_untold (s := addPending { popLine s with freeCount := s.freeCount - 1 } n) state)

end Sys2Proof.Machine
/-! ## Events of a making (R74, R115, R116)

A making raises POOL_EMPTY and DELIVERY_MISSED at most; what is sent in its middle raises nothing. -/

namespace Sys2Proof.Machine

open Sys2Proof

/-! ### Records and characters sent leave the latch -/

theorem returnRecord_latch (s : State) (r : Rec) : (returnRecord s r).latch = s.latch := by
  unfold returnRecord
  rw [unnameIn_eq]

theorem finishCut_latch (s : State) (c : CircuitNo) (r : Rec) : (finishCut s c r).latch = s.latch :=
  (select_only _ c).latch.trans ((returnRecord_latch _ r).trans (modSender_only s c _).latch)

theorem finishDelivery_latch (s : State) (c : CircuitNo) (r : Rec) : (finishDelivery s c r).latch = s.latch :=
  (select_only _ c).latch.trans ((returnRecord_latch _ r).trans (modSender_only s c _).latch)

theorem handBackCurrent_latch (s : State) (c : CircuitNo) (r : Rec) (f : RecRef) :
    (handBackCurrent s c r f).latch = s.latch := by
  unfold handBackCurrent
  split
  · exact returnRecord_latch s r
  · exact (modQueue_only s c _).latch

theorem handBack_latch (s : State) (c : CircuitNo) (r : Rec) : (handBack s c r).latch = s.latch := by
  unfold handBack
  split
  · exact returnRecord_latch s r
  · split
    · exact handBackCurrent_latch s c r _
    · exact handBackCurrent_latch _ c _ _

theorem closeEnds_latch (s : State) (c : CircuitNo) (r : Rec) (last : Phase) : (closeEnds s c r last).latch = s.latch := by
  have handed (x : Rec) : (handBack (modSender s c Sender.bare) c x).latch = s.latch :=
    (handBack_latch _ c x).trans (modSender_only s c _).latch
  unfold closeEnds
  dsimp only
  split
  · exact (select_only _ c).latch.trans (handed _)
  · exact (enterPausing_only _ c).latch.trans (handed _)

theorem goOn_latch (s : State) (c : CircuitNo) (r : Rec) (last : Phase) : (goOn s c r last).latch = s.latch := by
  unfold goOn
  dsimp only
  split
  · split
    · exact closeEnds_latch s c r last
    · exact (takeNext_only s c).latch
  · split
    · exact (takeBreak_only _ c r).latch.trans (modSender_only s c _).latch
    · exact (takeNext_only s c).latch

theorem recordSent_latch (s : State) (c : CircuitNo) (r : Rec) (last : Phase) : (recordSent s c r last).latch = s.latch := by
  unfold recordSent
  dsimp only
  split
  · split
    · exact finishCut_latch s c r
    · exact (takeNext_only s c).latch
  · split
    · exact (startCut_only s c).latch
    · split
      · exact (finishDelivery_latch _ c r).trans (modSender_only s c _).latch
      · exact (goOn_latch _ c r last).trans (modSender_only s c _).latch

/-! ### What has occurred -/

/-- Of no kind but `kinds` has an occurrence reached the latch, and none has been cleared. -/
def EventsBut (kinds : List EventKind) (s t : State) : Prop := ∀ k, k ∉ kinds → occurrence t k = occurrence s k

section Events

variable {kinds : List EventKind}

theorem EventsBut.refl (s : State) : EventsBut kinds s s := fun _ _ => rfl

theorem EventsBut.trans {s t u : State} (h : EventsBut kinds s t) (g : EventsBut kinds t u) : EventsBut kinds s u :=
  fun k hk => (g k hk).trans (h k hk)

theorem EventsBut.of_latch {s t : State} (h : t.latch = s.latch) : EventsBut kinds s t := fun k _ => occurrence_of_latch h k

theorem OnlyCircuit.events {c : CircuitNo} {s t : State} (h : OnlyCircuit c s t) : EventsBut kinds s t := .of_latch h.latch

theorem raise_events (s : State) {j : EventKind} (d : Detail) (h : j ∈ kinds) : EventsBut kinds s (raise s j d) :=
  fun _ hk => occurrence_raise_other s d fun e => hk (e ▸ h)

theorem payOwed_events (s : State) (k : EventKind) : EventsBut kinds s (payOwed s k) := by
  unfold payOwed
  split
  · exact fun j _ => (occurrence_of_latch (pushReport_latch _ _) j).trans (occurrence_modOwed s k j false)
  · exact .refl s

theorem reportLeaves_events (s : State) : EventsBut kinds s (reportLeaves s) := by
  have taken : EventsBut kinds s (modMgmt s fun m => { m with reports := m.reports.tail }) := .of_latch rfl
  unfold reportLeaves
  exact taken.trans (foldl_keeps (EventsBut kinds) .refl .trans payOwed payOwed_events allKinds _)

theorem reportSent_events (s : State) (c : CircuitNo) : EventsBut kinds s (reportSent s c) := by
  have bared : EventsBut kinds s (modSender s c Sender.bare) := (modSender_only s c _).events
  unfold reportSent
  dsimp only
  split
  · split
    · exact bared.trans (select_only _ c).events
    · exact (takeNext_only s c).events
  · split
    · exact (startCut_only s c).events
    · split
      · exact (bared.trans (reportLeaves_events _)).trans (select_only _ c).events
      · exact (takeNext_only s c).events

theorem charSent_events (s : State) (c : CircuitNo) : EventsBut kinds s (charSent s c) := by
  unfold charSent
  dsimp only
  split
  · exact .refl s
  · split
    · exact (modSender_only s c _).events
    · exact (modSender_only s c _).events.trans (reportSent_events _ c)
    · exact (modSender_only s c _).events.trans (.of_latch (recordSent_latch _ c _ _))

end Events

/-- The kinds that a making raises. -/
def makingKinds : List EventKind := [.poolEmpty, .deliveryMissed]

theorem miss_events (s : State) (c : CircuitNo) : EventsBut makingKinds s (miss s c) :=
  (modSender_only s c _).events.trans (raise_events _ _ (by decide))

theorem displaceAt_events (s : State) (c : CircuitNo) (i : Nat) (old : Rec) (n : SlotNo) (r : Rec) :
    EventsBut makingKinds s (displaceAt s c i old n r) := by
  have missed (u : State) (k : Option Key) : EventsBut makingKinds u (raiseMissed u c k) := by
    unfold raiseMissed
    split
    · exact raise_events u _ (by decide)
    · exact .refl u
  have unnamed (u : State) : EventsBut makingKinds u (unnameIn u old.ref) := .of_latch (by rw [unnameIn_eq])
  unfold displaceAt
  dsimp only
  exact ((((modQueue_only s c _).events.trans (unnamed _)).trans (modSender_only _ c _).events).trans (missed _ _)).trans
    (EventsBut.trans (.of_latch rfl) (joinQueue_only _ c r).events)

theorem turnFor_events (n : SlotNo) (r : Rec) (s : State) (c : CircuitNo) : EventsBut makingKinds s (turnFor n r s c) := by
  unfold turnFor
  split
  · exact .of_latch (joinQueue_only _ c r).latch
  · split
    · split
      · exact miss_events s c
      · split
        · exact displaceAt_events s c _ _ n r
        · exact miss_events s c
    · exact miss_events s c

theorem takenBeforeTurn_events (s : State) (i : Instr) : EventsBut makingKinds s (takenBeforeTurn s i) := by
  unfold takenBeforeTurn
  split
  · split
    · exact charSent_events s _
    · exact .refl s
  · split
    · exact (motorReady_only _ s).events
    · exact .refl s
  · exact .refl s

theorem makeTurn_events (n : SlotNo) (r : Rec) (s : State) (c : CircuitNo) : EventsBut makingKinds s (makeTurn n r s c) :=
  (foldl_keeps (EventsBut makingKinds) .refl .trans _ takenBeforeTurn_events _ { s with meanwhile := s.meanwhile.tail }).trans
    (turnFor_events n r _ c)

theorem makeFor_events (s : State) (n : SlotNo) (t : TakeNo) (k : RecKind) (gap : List TakeNo) (but : List CircuitNo) :
    EventsBut makingKinds s (makeFor s n t k gap but) := by
  unfold makeFor
  split
  · exact .refl s
  · exact foldl_keeps (EventsBut makingKinds) .refl .trans _ (makeTurn_events n _) _ s

/-! ### The order gate raises no more than a making -/

theorem releaseTake_events (s : State) (n : SlotNo) (t : TakeNo) (k : RecKind) (gap : List TakeNo) :
    EventsBut makingKinds s (releaseTake s n t k gap) := EventsBut.trans (.of_latch rfl) (makeFor_events _ n t k gap [])

theorem searchGate_events (fuel : Nat) (s : State) (n : SlotNo) : EventsBut makingKinds s (searchGate fuel s n) := by
  induction fuel generalizing s with
  | zero => exact .refl s
  | succ fuel ih =>
    unfold searchGate
    split
    · exact .refl s
    · exact (releaseTake_events s n _ _ _).trans (ih _)

end Sys2Proof.Machine
/-! ## Takes released (O14, O36)

R72 to R77: what a release leaves of the take, of the numbers passed and of the circuits. -/

namespace Sys2Proof.Machine

open Sys2Proof

/-- R77: the take as a release leaves it. -/
def Take.released (k : Take) : Take := { k with state := .released, waitTimer := none, releasedFlag := true }

/-- R77: a released take. -/
structure Released (k : Take) : Prop where
  state : k.state = .released
  flag : k.releasedFlag = true
  timer : k.waitTimer = none

theorem Released.blind : BlindToSuperseded Released := fun _ _ h => { h with }

theorem Take.released_released (k : Take) : Released k.released := ⟨rfl, rfl, rfl⟩

theorem releaseTake_eq (s : State) (n : SlotNo) (t : TakeNo) (k : RecKind) (gap : List TakeNo) :
    releaseTake s n t k gap = makeFor (modTake s n t Take.released) n t k gap [] := rfl

/-- A property that a release gives, or that it leaves, holds after it. -/
theorem releaseTake_is {P Q : Take → Prop} (blind : BlindToSuperseded Q) {s : State} {n : SlotNo} {t j : TakeNo}
    (is : TakeIs n t P s) (other : ∀ k, P k → Q k) (same : ∀ k, P k → Q k.released) (kind : RecKind) (gap : List TakeNo) :
    TakeIs n t Q (releaseTake s n j kind gap) := by
  rw [releaseTake_eq]
  refine TakeIs.delivery ?_ blind (makeFor_delivery _ n j kind gap [])
  by_cases e : t = j
  · subst e
    exact is.modTake same
  · obtain ⟨x, take, h⟩ := is
    exact ⟨x, by rw [takeAt_modTake, if_neg e, take], other x h⟩

theorem releaseTake_keepsReleased {s : State} {n : SlotNo} {t : TakeNo} (is : TakeIs n t Released s) (j : TakeNo)
    (kind : RecKind) (gap : List TakeNo) : TakeIs n t Released (releaseTake s n j kind gap) :=
  releaseTake_is Released.blind is (fun _ h => h) (fun k _ => k.released_released) kind gap

theorem searchGate_keepsReleased {n : SlotNo} {t : TakeNo} (fuel : Nat) {s : State} (is : TakeIs n t Released s) :
    TakeIs n t Released (searchGate fuel s n) := by
  induction fuel generalizing s with
  | zero => exact is
  | succ fuel ih =>
    unfold searchGate
    split
    · exact is
    · exact ih (releaseTake_keepsReleased is _ _ _)

theorem releaseTake_releases {s : State} {n : SlotNo} {t : TakeNo} {k : Take} (take : takeAt s n t = some k) (kind : RecKind)
    (gap : List TakeNo) : TakeIs n t Released (releaseTake s n t kind gap) := by
  rw [releaseTake_eq]
  refine TakeIs.delivery ?_ Released.blind (makeFor_delivery _ n t kind gap [])
  exact TakeIs.modTake (P := fun _ => True) ⟨k, take, trivial⟩ fun k _ => k.released_released

/-- R74: each take that is due is released. -/
theorem releases_release {n : SlotNo} {t : TakeNo} (gone due : List TakeNo) {s : State}
    (is : t ∈ due ∧ (∃ k, takeAt s n t = some k) ∨ TakeIs n t Released s) :
    TakeIs n t Released (due.foldl (fun u j => releaseTake u n j .new (gapNotice gone j)) s) := by
  induction due generalizing s with
  | nil =>
    obtain ⟨mem, -⟩ | is := is
    · cases mem
    · exact is
  | cons j due ih =>
    refine ih ?_
    obtain ⟨mem, k, take⟩ | is := is
    · obtain rfl | mem := List.mem_cons.mp mem
      · exact .inr (releaseTake_releases take .new (gapNotice gone t))
      · obtain ⟨k, take, -⟩ := releaseTake_is (P := fun _ => True) (Q := fun _ => True) (fun _ _ h => h) (j := j)
          ⟨k, take, trivial⟩ (fun _ h => h) (fun _ h => h) .new (gapNotice gone j)
        exact .inl ⟨mem, k, take⟩
    · exact .inr (releaseTake_keepsReleased is _ _ _)

/-! ### The numbers passed -/

theorem DeliveryOnly.passed {s u : State} (h : DeliveryOnly s u) (n : SlotNo) : u.slots[n].passed = s.slots[n].passed :=
  Eq.trans (congrArg Slot.passed (h.stories n) :) rfl

theorem releaseTake_passed (s : State) (n : SlotNo) (t : TakeNo) (k : RecKind) (gap : List TakeNo) :
    (releaseTake s n t k gap).slots[n].passed = s.slots[n].passed := by
  rw [releaseTake_eq, (makeFor_delivery _ n t k gap []).passed n, modTake_slots, modAt_same]

theorem searchGate_passed (fuel : Nat) (s : State) (n : SlotNo) : (searchGate fuel s n).slots[n].passed = s.slots[n].passed := by
  induction fuel generalizing s with
  | zero => rfl
  | succ fuel ih =>
    cases ready : nextReady s.slots[n] with
    | none => simp only [searchGate, ready]
    | some t =>
      simp only [searchGate, ready]
      exact (ih _).trans (releaseTake_passed s n t .new [])

theorem releases_passed (gone due : List TakeNo) (s : State) (n : SlotNo) :
    (due.foldl (fun u j => releaseTake u n j .new (gapNotice gone j)) s).slots[n].passed = s.slots[n].passed :=
  foldl_keeps (fun s u => u.slots[n].passed = s.slots[n].passed) (fun _ => rfl) (fun a b => b.trans a) _
    (fun u j => releaseTake_passed u n j _ _) due s

/-! ### The expiry of a wait timer (R74) -/

/-- R74: the numbers below `m` have been passed, the waiting takes up to it released, and the gate has looked for more; the
gap has not been told yet. -/
def gapPassed (s : State) (n : SlotNo) (m : TakeNo) : State :=
  gateSearch ((waitingUpTo s.slots[n] m).foldl
    (fun u t => releaseTake u n t .new (gapNotice (passedBy s.slots[n] m) t))
    (modSlot s n fun x => { x with passed := unionOf x.passed (setOf (passedBy s.slots[n] m)) })) n

theorem expireWait_told {s : State} {n : SlotNo} {m g : TakeNo} {y : Key} {gone : List TakeNo}
    (passed : passedBy s.slots[n] m = g :: gone) (key : s.slots[n].key = some y) :
    expireWait s n m = raise (gapPassed s n m) .takeGap (.keyTake y g) := by
  unfold expireWait gapPassed
  simp only [passed, key]

/-- The telling of the gap is a matter of the latch and the reports. -/
theorem expireWait_report (s : State) (n : SlotNo) (m : TakeNo) : ReportOnly (gapPassed s n m) (expireWait s n m) := by
  unfold expireWait gapPassed
  dsimp only
  split
  · exact raise_report _ _ _
  · exact .refl _

theorem mem_passedBy {x : Slot} {m j : TakeNo} : j ∈ passedBy x m ↔ j < m ∧ cleared x j = false ∧ isStored x j = false := by
  simp only [passedBy, List.mem_filter, List.mem_finRange, true_and, Bool.and_eq_true, decide_eq_true_eq, Bool.not_eq_true',
    and_assoc]

theorem gapPassed_story (s : State) (n : SlotNo) (m : TakeNo) : StoryOnly n s (gapPassed s n m) := by
  have passed := modSlot_story s n fun x => { x with passed := unionOf x.passed (setOf (passedBy s.slots[n] m)) }
  exact (passed.trans (foldl_keeps (StoryOnly n) (.refl n) .trans _ (fun u t => releaseTake_story u n t _ _) _ _)).trans
    (gateSearch_story _ n)

theorem gapPassed_passed (s : State) (n : SlotNo) (m : TakeNo) :
    (gapPassed s n m).slots[n].passed = unionOf s.slots[n].passed (setOf (passedBy s.slots[n] m)) := by
  unfold gapPassed gateSearch
  rw [searchGate_passed, releases_passed, modSlot_slots, modAt_same]

theorem gapPassed_events (s : State) (n : SlotNo) (m : TakeNo) : EventsBut makingKinds s (gapPassed s n m) := by
  have passed : EventsBut makingKinds s
      (modSlot s n fun x => { x with passed := unionOf x.passed (setOf (passedBy s.slots[n] m)) }) := .of_latch rfl
  exact (passed.trans (foldl_keeps (EventsBut makingKinds) .refl .trans _ (fun u t => releaseTake_events u n t _ _) _ _)).trans
    (searchGate_events 12 _ n)

theorem mem_waitingUpTo {x : Slot} {m t : TakeNo} : t ∈ waitingUpTo x m ↔ t ≤ m ∧ isWaiting x t = true := by
  simp only [waitingUpTo, List.mem_filter, List.mem_finRange, true_and, Bool.and_eq_true, decide_eq_true_eq]

theorem gapPassed_releases {s : State} {n : SlotNo} {m t : TakeNo} (below : t ≤ m) (waits : isWaiting s.slots[n] t = true) :
    TakeIs n t Released (gapPassed s n m) := by
  obtain ⟨k, take, -⟩ := storable_of_waiting waits
  refine searchGate_keepsReleased 12 (releases_release _ _ (.inl ⟨mem_waitingUpTo.mpr ⟨below, waits⟩, k, ?_⟩))
  rw [takeAt_modSlot]
  exact take

/-- R74: the lowest number passed stands first. -/
theorem passedBy_first {x : Slot} {m g : TakeNo} (mem : g ∈ passedBy x m) (lowest : ∀ j, j < g → j ∉ passedBy x m) :
    ∃ gone, passedBy x m = g :: gone := by
  have sorted : (passedBy x m).Pairwise (· < ·) := (List.pairwise_lt_finRange 12).filter _
  cases passed : passedBy x m with
  | nil =>
    rw [passed] at mem
    cases mem
  | cons a gone =>
    rw [passed] at mem lowest sorted
    obtain rfl | later := List.mem_cons.mp mem
    · exact ⟨gone, rfl⟩
    · exact absurd (List.mem_cons_self ..) (lowest a (List.rel_of_pairwise_cons sorted later))

/-! ### The records of a release (R77, R113) -/

theorem gateSearch_none {s : State} {n : SlotNo} (none : ∀ j : TakeNo, isWaiting s.slots[n] j = false) :
    gateSearch s n = s := by
  have ready : nextReady s.slots[n] = .none := by
    unfold nextReady
    rw [List.find?_eq_none]
    intro j _
    rw [none j, Bool.false_and]
    exact Bool.false_ne_true
  show searchGate (11 + 1) s n = s
  simp only [searchGate, ready]

/-- R113: with nothing coming between and a free record for each circuit, the release makes its records from the pool. -/
theorem releaseTake_made {s : State} {n : SlotNo} {t : TakeNo} {k : Take} {y : Key} {g : Category} {cs : List CircuitNo}
    (nothing : s.meanwhile = []) (idle : IdleCarriesNothing s) (take : takeAt s n t = some k)
    (key : s.slots[n].key = some y) (category : s.slots[n].category = some g) (routed : cs = routedSet s g y.agency k.cls)
    (enough : cs.length ≤ s.freeCount) (kind : RecKind) (gap : List TakeNo) :
    Made n cs (fun x => decide (x = freshRecord n t k.cls kind gap)) (modTake s n t Take.released)
      (releaseTake s n t kind gap) := by
  have take' : takeAt (modTake s n t Take.released) n t = some k.released := by rw [takeAt_modTake_same, take]; rfl
  have slot : (modTake s n t Take.released).slots[n] =
      { s.slots[n] with takes := modAt s.slots[n].takes t (Option.map Take.released) } := modAt_same _ n _
  have routes : (routeStory (modTake s n t Take.released) n k.cls).filter (fun c => !decide (c ∈ ([] : List CircuitNo))) = cs := by
    have same : routedSet (modTake s n t Take.released) g y.agency k.cls = routedSet s g y.agency k.cls :=
      routedSet_congr rfl rfl rfl (fun _ => rfl) g y.agency k.cls
    have all (l : List CircuitNo) : l.filter (fun c => !decide (c ∈ ([] : List CircuitNo))) = l := by simp
    rw [all, routeStory, slot]
    simp only [key, category]
    exact same.trans routed.symm
  have made : releaseTake s n t kind gap =
      makeRecords (modTake s n t Take.released) cs n (freshRecord n t k.cls kind gap) := by
    rw [releaseTake_eq, makeFor, take']
    exact congrArg (makeRecords (modTake s n t Take.released) · n (freshRecord n t k.cls kind gap)) routes
  rw [made]
  exact makeRecords_made (decide_eq_true rfl) cs (routed ▸ routedSet_nodup s g y.agency k.cls) (fun c _ => idle c) enough nothing

/-- Records made leave the takes as they were, so those that wait too. -/
theorem Made.isWaiting {n : SlotNo} {cs : List CircuitNo} {p : Rec → Bool} {s u : State} (h : Made n cs p s u) (j : TakeNo) :
    isWaiting u.slots[n] j = isWaiting s.slots[n] j := by
  rw [h.slots, modAt_same]
  rfl

theorem isWaiting_released (s : State) (n : SlotNo) (t j : TakeNo) : isWaiting (modTake s n t Take.released).slots[n] j =
    if j = t then false else isWaiting s.slots[n] j := by
  rw [modTake_slots, modAt_same]
  unfold Sys2Proof.Machine.isWaiting
  dsimp only
  rw [modAt_get]
  by_cases e : j = t
  · subst e
    rw [if_pos rfl, if_pos rfl]
    cases s.slots[n].takes[j] <;> rfl
  · rw [if_neg e, if_neg e]

/-- With the alert mode off an event is a matter of the latch alone. -/
theorem raise_quiet {s : State} (quiet : s.latch.alertMode = false) (k : EventKind) (d : Detail) :
    ∃ f, raise s k d = modEntry s k f := by
  unfold raise
  dsimp only
  split
  · exact ⟨_, rfl⟩
  · simp only [quiet, Bool.false_and]
    exact ⟨_, rfl⟩

theorem expireWait_quiet {s : State} {n : SlotNo} {m : TakeNo} (quiet : (gapPassed s n m).latch.alertMode = false) :
    (expireWait s n m).circuits = (gapPassed s n m).circuits := by
  have told : expireWait s n m = gapPassed s n m ∨ ∃ k d, expireWait s n m = raise (gapPassed s n m) k d := by
    unfold expireWait gapPassed
    dsimp only
    split
    · exact .inr ⟨_, _, rfl⟩
    · exact .inl rfl
  obtain same | ⟨k, d, raised⟩ := told
  · rw [same]
  · obtain ⟨f, entry⟩ := raise_quiet quiet k d
    rw [raised, entry]
    rfl

/-- R74: the gap notice, as O36 writes it. -/
theorem gapNotice_eq (x : Slot) (m : TakeNo) : gapNotice (passedBy x m) m =
    (List.finRange 12).filter fun j => decide (j < m ∧ ∀ i : TakeNo, j ≤ i → i < m →
      cleared x i = false ∧ isStored x i = false) := by
  refine List.filter_congr fun j _ => ?_
  rw [Bool.eq_iff_iff, Bool.and_eq_true, decide_eq_true_eq, decide_eq_true_eq, List.all_eq_true]
  refine and_congr_right fun _ => ⟨fun all i from_j below => ?_, fun all i _ => ?_⟩
  · have passed := all i (List.mem_finRange i)
    simp only [from_j, below, decide_true, Bool.and_self, Bool.not_true, Bool.false_or, decide_eq_true_eq] at passed
    exact (mem_passedBy.mp passed).2
  · by_cases inside : j ≤ i ∧ i < m
    · rw [decide_eq_true (mem_passedBy.mpr ⟨inside.2, all i inside.1 inside.2⟩), Bool.or_true]
    · have outside : (decide (j ≤ i) && decide (i < m)) = false := by
        rw [← Bool.decide_and]
        exact decide_eq_false inside
      rw [outside]
      rfl

/-- R74, R113: no other take waits, so the records of the one release are all that are made. -/
theorem gapPassed_made {s : State} {n : SlotNo} {m : TakeNo} {k : Take} {y : Key} {g : Category} {cs : List CircuitNo}
    (waits : isWaiting s.slots[n] m = true) (nothing : s.meanwhile = []) (idle : IdleCarriesNothing s)
    (alone : ∀ j : TakeNo, isWaiting s.slots[n] j = true → j = m) (take : takeAt s n m = some k)
    (key : s.slots[n].key = some y) (category : s.slots[n].category = some g) (routed : cs = routedSet s g y.agency k.cls)
    (enough : cs.length ≤ s.freeCount) :
    Made n cs (fun x => decide (x = freshRecord n m k.cls .new (gapNotice (passedBy s.slots[n] m) m)))
      (modTake (modSlot s n fun x => { x with passed := unionOf x.passed (setOf (passedBy s.slots[n] m)) }) n m Take.released)
      (gapPassed s n m) := by
  let a := modSlot s n fun x => { x with passed := unionOf x.passed (setOf (passedBy s.slots[n] m)) }
  have due : waitingUpTo s.slots[n] m = [m] :=
    filter_finRange_eq fun j => ⟨fun both => alone j (Bool.and_eq_true _ _ |>.mp both).2, fun e => by
      rw [e, waits, decide_eq_true (le_refl m)]
      rfl⟩
  have slot : a.slots[n] = { s.slots[n] with passed := unionOf s.slots[n].passed (setOf (passedBy s.slots[n] m)) } :=
    modAt_same _ n _
  have take' : takeAt a n m = some k := by rw [takeAt_modSlot]; exact take
  have made := releaseTake_made (s := a) nothing idle take' ((congrArg Slot.key slot).trans key)
    ((congrArg Slot.category slot).trans category)
    (routed.trans (routedSet_congr rfl rfl rfl (fun _ => rfl) g y.agency k.cls).symm) enough .new
    (gapNotice (passedBy s.slots[n] m) m)
  have none (j : TakeNo) :
      isWaiting (releaseTake a n m .new (gapNotice (passedBy s.slots[n] m) m)).slots[n] j = false := by
    rw [made.isWaiting, isWaiting_released]
    split
    · rfl
    · next e =>
      rw [slot]
      exact Bool.eq_false_iff.mpr fun waits => e (alone j waits)
  have single : gapPassed s n m = releaseTake a n m .new (gapNotice (passedBy s.slots[n] m) m) := by
    unfold gapPassed
    rw [due]
    exact gateSearch_none none
  rw [single]
  exact made

/-- Settles O36: the expiry is `gapPassed` and then the telling of the gap. -/
theorem waitExpiryPassesTheGap : Obligations.WaitExpiryPassesTheGap := by
  unfold Obligations.WaitExpiryPassesTheGap
  intro s n m high waits
  have told := expireWait_report s n m
  refine ⟨expireWait s n m, ?_, fun j => ?_, fun t below waiting => ?_, fun y g key below uncleared unstored lowest => ?_,
    expireWait_story s n m, ?_⟩
  · show runEvent (waitExpires n m) s = _
    rw [runEvent_high high, waitExpires, if_pos waits]
  · rw [told.slots, gapPassed_passed, unionOf, tabulate_get, Bool.or_eq_true, setOf, tabulate_get, decide_eq_true_eq,
      mem_passedBy]
  · obtain ⟨k, take, is⟩ := (gapPassed_releases below waiting).of_slots told.slots
    exact ⟨k, take, is.state, is.flag, is.timer⟩
  · obtain ⟨gone, passed⟩ := passedBy_first (mem_passedBy.mpr ⟨below, uncleared, unstored⟩) fun j lower mem => by
      obtain ⟨-, notCleared, notStored⟩ := mem_passedBy.mp mem
      obtain is | is := lowest j lower
      · rw [notCleared] at is
        cases is
      · rw [notStored] at is
        cases is
    rw [expireWait_told passed key]
    exact (raise_occurred _ _ _).congr (gapPassed_events s n m _ (by decide)).symm rfl
  · intro k y g cs r nothing idle quiet alone take key category routed enough record
    have made := gapPassed_made waits nothing idle alone take key category routed enough
    rw [gapNotice_eq] at made
    have still : (gapPassed s n m).latch.alertMode = false := (gapPassed_story s n m).tables.alertMode.trans quiet
    rw [expireWait_quiet still, told.freeCount, told.slots, record]
    refine ⟨made.freeCount, ?_, made.made, made.others⟩
    rw [made.slots, modAt_same, modTake_slots, modAt_same, modSlot_slots, modAt_same]

end Sys2Proof.Machine
/-! ## Copy headers answered (O12)

R24, R65 to R67: the store's answers to a copy header, and what the framer makes of each. -/

namespace Sys2Proof.Machine

open Sys2Proof

section CopyHeader

variable {s : State} {l : LineNo} {sh : Shift} {d : CopyHeader} {n : SlotNo}

/-! ### The store's answer (R65 to R67) -/

theorem handOver_allocates (miss : lookup s d.key = none) (room : slotToAllocate s = some n) :
    handOver s l d = (modSlot (allocate s n d.key) n (openFirst l d), .opened n d.take) := by
  simp only [handOver, miss, room]

theorem handOver_full (miss : lookup s d.key = none) (none : slotToAllocate s = none) :
    handOver s l d = (modLineCounters (raise s .storeFull (.lineKey l d.key)) l fun c =>
      { c with refused := count c.refused }, .full) := by
  simp only [handOver, miss, none]

theorem handOver_opens (hit : lookup s d.key = some n) (inOrder : takeOrderFault s.slots[n] d = false)
    (absent : takeAt s n d.take = none) :
    handOver s l d = (modSlot s n (openFirst l d), .opened n d.take) := by
  simp only [handOver, hit, inOrder, Bool.false_eq_true, if_false, absent]

theorem handOver_fault (hit : lookup s d.key = some n) (outOfOrder : takeOrderFault s.slots[n] d = true) :
    handOver s l d = (modLineCounters (raise s .headerFault (.line l)) l fun c =>
      { c with headerFaults := count c.headerFaults }, .fault) := by
  simp only [handOver, hit, outOfOrder, if_true]

theorem handOver_duplicate {k : Take} (hit : lookup s d.key = some n) (inOrder : takeOrderFault s.slots[n] d = false)
    (present : takeAt s n d.take = some k) (stays : d.sub = false ∨ k.state = .filling ∨ k.state = .cutFilling) :
    handOver s l d = (modLineCounters s l fun c => { c with duplicates := count c.duplicates }, .duplicate) := by
  have noSubstitute : (d.sub && storedTake k) = false := by
    obtain plain | filling | cut := stays
    · rw [plain, Bool.false_and]
    · simp [storedTake, filling]
    · simp [storedTake, cut]
  simp only [handOver, hit, inOrder, Bool.false_eq_true, if_false, present, noSubstitute]

/-! ### The take opened (R67) -/

/-- R65, R67: a slot with no takes has its category and slug from the header. -/
theorem openFirst_allocated :
    openFirst l d { Slot.freed with state := .occupied, key := some d.key } =
      { Slot.freed with
        state := .occupied, key := some d.key, category := some d.category, slug := d.slug
        lastTake := if d.last then some d.take else none
        takes := put (Vector.replicate 12 none) d.take (some (firstTake l d)) } := by
  have empty : (presentTakes { Slot.freed with state := .occupied, key := some d.key }).isEmpty = true := by
    simp [presentTakes, Slot.freed]
  simp only [openFirst, empty, if_true, withLast]
  split <;> rfl

/-- R66, R67: the slot, a take opened in it beside others. -/
def takeOpened (l : LineNo) (d : CopyHeader) (x : Slot) : Slot :=
  { x with
    lastTake := if d.last then some d.take else x.lastTake
    takes := put x.takes d.take (some (firstTake l d)) }

/-- R67: a slot with takes keeps its category and slug. -/
theorem openFirst_beside {x : Slot} (others : (presentTakes x).isEmpty = false) :
    openFirst l d x = takeOpened l d x := by
  simp only [openFirst, others, Bool.false_eq_true, if_false, withLast, takeOpened]
  split <;> rfl

/-! ### The framer's next state (R24) -/

theorem headerEnds_handed (kind : s.lines[l].framer.kind = .copy)
    (reads : readCopyHeader s.lines[l].desc.agency s.lines[l].framer.header = some d) :
    headerEnds (shifted s l sh) l = handCopyHeader (shifted s l sh) l d := by
  have reads' : readCopyHeader (shifted s l sh).lines[l].desc.agency s.lines[l].framer.header = some d := by
    rw [shifted_line]
    exact reads
  simp only [headerEnds, shifted_framer, kind, reads']

/-- R24: where the store opens the take in slot `n` and changes slots and recency alone, the framer enters COPY-BODY. -/
theorem rested_takeOpened (service : lineInService s.lines[l] = true) {slots : Vector Slot 40} {recency : List SlotNo}
    (handed : handOver (shifted s l sh) l d = ({ shifted s l sh with slots := slots, recency := recency }, .opened n d.take)) :
    rested (handCopyHeader (shifted s l sh) l d) l = { withLine s l sh
        { s.lines[l].framer with state := .copyBody, held := 0, lineStart := true, takeRef := some (n, d.take) }
        s.lines[l].counters with
      slots := slots, recency := recency } := by
  simp only [handCopyHeader, handed]
  exact congrArg (fun u : State => { u with slots := slots, recency := recency })
    (rested_modFramer (sh := sh) (g := fun f =>
      { f with state := .copyBody, held := 0, lineStart := true, takeRef := some (n, d.take) }) service)

/-- R24: where the store answers otherwise, the framer passes the message over from a line start. -/
theorem handCopyHeader_turnedAway {w : State} {answer : StoreAnswer} (handed : handOver s l d = (w, answer))
    (closed : answer = .full ∨ answer = .fault ∨ answer = .duplicate) : handCopyHeader s l d = toDiscard w l true := by
  obtain rfl | rfl | rfl := closed <;> simp only [handCopyHeader, handed]

/-- R65, R66: a header turned away with an event and a count. -/
theorem rested_turnedAwayWith (service : lineInService s.lines[l] = true) (e : EventKind) (detail : Detail)
    (g : LineCounters → LineCounters) {u : State}
    (turned : u = rested (toDiscard (modLineCounters (raise (shifted s l sh) e detail) l g) l true) l) :
    u.lines[l] = afterCharacter sh
      { s.lines[l].framer with state := .discard, held := 0, lineStart := true, takeRef := none }
      (g s.lines[l].counters) s.lines[l] ∧
    Occurred e detail s u ∧ LineOnly l s u ∧ u.slots = s.slots ∧ u.recency = s.recency := by
  subst turned
  have raised := raise_report (shifted s l sh) e detail
  have counted := modLineCounters_only (raise (shifted s l sh) e detail) l g
  have only := ((toDiscard_only _ l true).after counted).after
    ⟨raised.delivery.tables, fun m _ => congrArg (fun lines : Vector Line 24 => lines[m]) raised.delivery.lines⟩
  refine ⟨?_, (raise_occurred (shifted s l sh) e detail).congr rfl rfl, only.rested, raised.slots, raised.delivery.recency⟩
  refine rested_line service ?_
  have line : (raise (shifted s l sh) e detail).lines[l] = { s.lines[l] with shift := sh } := by
    rw [raise_lines, shifted_line]
  rw [toDiscard, modFramer, modLineCounters, modLine_line, modLine_line, line]

/-- R67: a duplicate is counted and passed over. -/
theorem rested_duplicate (service : lineInService s.lines[l] = true) :
    rested (toDiscard (modLineCounters (shifted s l sh) l fun c => { c with duplicates := count c.duplicates }) l true) l =
      withLine s l sh { s.lines[l].framer with state := .discard, held := 0, lineStart := true, takeRef := none }
        { s.lines[l].counters with duplicates := min (s.lines[l].counters.duplicates + 1) 65535 } := by
  simp only [toDiscard, modFramer, modLineCounters, modLine_modLine]
  exact rested_modLine service rfl

end CopyHeader

/-- Settles O12: the framer's next state under each of the store's answers. -/
theorem copyHeadersAreAnswered : Obligations.CopyHeadersAreAnswered := by
  unfold Obligations.CopyHeadersAreAnswered
  refine ⟨?_, ?_⟩
  · rintro s l v sh d arrived header kind reads n k rfl f rfl
    have service := inService_of_arrives arrived
    rw [exec_headerEnd arrived header, headerEnds_handed kind reads]
    refine ⟨fun miss room => ?_, fun hit inOrder absent others => ?_⟩
    · have handed := handOver_allocates (s := shifted s l sh) (l := l) miss room
      rw [allocate, slotToFront, modSlot, modSlot, modAt_modAt, openFirst_allocated] at handed
      rw [rested_takeOpened service handed]
      rfl
    · have handed := handOver_opens (s := shifted s l sh) (l := l) hit inOrder absent
      have slot : modSlot (shifted s l sh) n (openFirst l d) = modSlot (shifted s l sh) n (takeOpened l d) :=
        modSlot_congr (openFirst_beside others)
      rw [slot] at handed
      rw [rested_takeOpened service handed]
      rfl
  · rintro s l v sh d arrived header kind reads f rfl
    have service := inService_of_arrives arrived
    rw [exec_headerEnd arrived header, headerEnds_handed kind reads]
    refine ⟨fun miss none => ?_, fun n hit outOfOrder => ?_, fun n k hit inOrder present stays => ?_⟩
    · have handed := handOver_full (s := shifted s l sh) (l := l) miss none
      rw [handCopyHeader_turnedAway handed (Or.inl rfl)]
      exact ⟨_, rfl, rested_turnedAwayWith service .storeFull _ _ rfl⟩
    · have handed := handOver_fault (s := shifted s l sh) (l := l) hit outOfOrder
      rw [handCopyHeader_turnedAway handed (Or.inr (Or.inl rfl))]
      exact ⟨_, rfl, rested_turnedAwayWith service .headerFault _ _ rfl⟩
    · have handed := handOver_duplicate (s := shifted s l sh) (l := l) hit inOrder present stays
      rw [handCopyHeader_turnedAway handed (Or.inr (Or.inr rfl)), rested_duplicate service]

end Sys2Proof.Machine
/-! ## Body characters (O13)

R26 to R28, R32, R69, R70: slashes held, text discarded, written, or cut where no block is free. -/

namespace Sys2Proof.Machine

open Sys2Proof

/-! ### Text for a take that is not being filled, and text that is cut (R70) -/

theorem Take.extended_first {k : Take} (first : k.replacement = none) (z : Text) :
    k.extended z = { k with current := { k.current with text := k.current.text ++ z } } := by
  simp only [Take.extended, withFilling, fillingVersion, first]

theorem Take.extendedInto_first {k : Take} (first : k.replacement = none) (b : BlockNo) (z : Text) :
    k.extendedInto b z =
      { k with current := { k.current with blocks := k.current.blocks ++ [b], text := k.current.text ++ z } } := by
  simp only [Take.extendedInto, withFilling, fillingVersion, first]

/-- R70: the take, the version being filled cut. -/
def Take.cutShort (k : Take) : Take :=
  { withFilling k { fillingVersion k with cut := true } with state := .cutFilling }

theorem Take.extended_cutShort_first {k : Take} (first : k.replacement = none) (z : Text) :
    (k.extended z).cutShort =
      { k with state := .cutFilling, current := { k.current with text := k.current.text ++ z, cut := true } } := by
  simp only [Take.extended_first first, Take.cutShort, withFilling, fillingVersion, first]

section Cut

variable {s : State} {n : SlotNo} {t : TakeNo} {k : Take} {y : Key}

theorem writeText_idle (take : takeAt s n t = some k) (idle : k.state ≠ .filling) (z : Text) : writeText s n t z = s := by
  induction z with
  | nil => rfl
  | cons h z ih => rw [writeText_cons, writeChar_idle take idle, ih]

/-- R70: the character that finds no block free cuts the version. -/
theorem writeChar_cuts (take : takeAt s n t = some k) (filling : k.state = .filling)
    (full : (fillingVersion k).text.length % 64 = 0) (none : lowestFree s.slots[n].blockMap = none)
    (key : s.slots[n].key = some y) (h : House) :
    writeChar s n t h = raise (modSlot s n (withTake t k.cutShort)) .takeCut (.keyTake y t) := by
  have full' : (fillingVersion k).length % Config.blockSize = 0 := full
  have keyKept : (modSlot s n (withTake t k.cutShort)).slots[n].key = some y := by
    rw [modSlot_slots, modAt_same]
    exact key
  have cut : modTake s n t (fun _ => k.cutShort) = modSlot s n (withTake t k.cutShort) := modTake_eq take
  simp only [writeChar, take, if_pos filling, if_pos full', none]
  show raiseTakeCut (modTake s n t fun _ => k.cutShort) n t = _
  rw [cut, raiseTakeCut, keyKept]

theorem raise_occurred_of_latch {s u : State} (latch : u.latch = s.latch) (e : EventKind) (d : Detail) :
    Occurred e d s (raise u e d) := (raise_occurred u e d).congr (occurrence_of_latch latch.symm e) rfl

theorem takeAt_raise (s : State) (e : EventKind) (d : Detail) (n : SlotNo) (t : TakeNo) :
    takeAt (raise s e d) n t = takeAt s n t := takeAt_of_slots (raise_report s e d).slots n t

/-- R69, R70: text that needs a block where none is free: what has room is written, the next character cuts the version, and
what is left is thrown away. -/
theorem writeText_cuts {z : Text} (take : takeAt s n t = some k) (filling : k.state = .filling) (nonempty : z ≠ [])
    (begins : (fillingVersion k).text.length % 64 = 0 ∨ 64 < (fillingVersion k).text.length % 64 + z.length)
    (none : lowestFree s.slots[n].blockMap = none) (key : s.slots[n].key = some y) :
    writeText s n t z =
      raise (modSlot s n (withTake t
          (k.extended (z.take ((64 - (fillingVersion k).text.length % 64) % 64))).cutShort)) .takeCut (.keyTake y t) := by
  have positive : 0 < z.length := List.length_pos_iff.mpr nonempty
  have below : (fillingVersion k).text.length % 64 < 64 := Nat.mod_lt _ (by decide)
  generalize room : (64 - (fillingVersion k).text.length % 64) % 64 = m
  have less : m < z.length := by omega
  have takeLength : (z.take m).length = m := List.length_take_of_le less.le
  have fits : z.take m = [] ∨ 0 < (fillingVersion k).text.length % 64 ∧
      (fillingVersion k).text.length % 64 + (z.take m).length ≤ 64 := by
    rw [takeLength]
    by_cases empty : m = 0
    · exact Or.inl (by rw [empty, List.take_zero])
    · exact Or.inr (by omega)
  have full : (fillingVersion (k.extended (z.take m))).text.length % 64 = 0 := by
    rw [Take.extended_text, List.length_append, takeLength]
    omega
  have filling' : (k.extended (z.take m)).state = .filling := (Take.extended_state k _).trans filling
  have slot : (modSlot s n (withTake t (k.extended (z.take m)))).slots[n] = withTake t (k.extended (z.take m)) s.slots[n] := by
    rw [modSlot_slots, modAt_same]
  have split : z = z.take m ++ z[m] :: z.drop (m + 1) := by
    rw [← List.drop_eq_getElem_cons less, List.take_append_drop]
  have cut := writeChar_cuts (y := y) (takeAt_withTake s n t (k.extended (z.take m))) filling' full
    (by rw [slot]; exact none) (by rw [slot]; exact key) z[m]
  have discarded := writeText_idle (n := n) (t := t)
    ((takeAt_raise _ .takeCut (.keyTake y t) n t).trans (takeAt_withTake s n t (k.extended (z.take m)).cutShort))
    (by simp [Take.cutShort]) (z.drop (m + 1))
  calc writeText s n t z
      = writeText (writeText s n t (z.take m)) n t (z[m] :: z.drop (m + 1)) := by
        rw [← writeText_append, ← split]
    _ = writeText (writeChar (modSlot s n (withTake t (k.extended (z.take m)))) n t z[m]) n t (z.drop (m + 1)) := by
        rw [writeText_extends _ take filling fits, writeText_cons]
    _ = _ := by
        rw [cut, modSlot_modSlot, modSlot_congr (withTake_withTake t _ _ s.slots[n]), discarded]

end Cut

/-! ### Slashes and text at the framer (R26, R27, R32) -/

section Framer

variable {s : State} {l : LineNo} {v : BitVec 7} {h : House} {sh : Shift}

/-- R26: a slash at a line start is held. -/
theorem exec_body_slash (arrived : arrives s l v (some houseSlash) sh) (body : InBody s.lines[l].framer)
    (held : s.lines[l].framer.held = 0) (lineStart : s.lines[l].framer.lineStart = true) :
    exec (.characterArrives l v true) s = .next (atOnce
      (withLine s l sh { s.lines[l].framer with held := 1 } s.lines[l].counters)) := by
  have char : bodyChar (betweenDropAndRequest l) (shifted s l sh) l houseSlash =
      modFramer (shifted s l sh) l fun f => { f with held := 1 } := by
    simp only [bodyChar, shifted_framer, held, lineStart, and_self, if_true]
  rw [exec_bodyChar arrived body, char, rested_modFramer (inService_of_arrives arrived)]

/-- R26: a slash after one held is held. -/
theorem exec_body_second (arrived : arrives s l v (some houseSlash) sh) (body : InBody s.lines[l].framer)
    (held : s.lines[l].framer.held = 1) :
    exec (.characterArrives l v true) s = .next (atOnce
      (withLine s l sh { s.lines[l].framer with held := 2 } s.lines[l].counters)) := by
  have one : (1 : Fin 3) ≠ 0 := by decide
  have char : bodyChar (betweenDropAndRequest l) (shifted s l sh) l houseSlash =
      modFramer (shifted s l sh) l fun f => { f with held := 2 } := by
    simp only [bodyChar, shifted_framer, held, if_neg one, if_true]
  rw [exec_bodyChar arrived body, char, rested_modFramer (inService_of_arrives arrived)]

/-- R26, R27: text in a body. -/
theorem exec_body_text (arrived : arrives s l v (some h) sh) (body : InBody s.lines[l].framer)
    (text : IsText s.lines[l].framer h) :
    exec (.characterArrives l v true) s = .next (atOnce (rested
      (modFramer (passOn (passSlashes (shifted s l sh) l s.lines[l].framer.held.val) l h) l
        fun _ => afterText s.lines[l].framer h) l)) := by
  have text' : IsText (shifted s l sh).lines[l].framer h := by rw [shifted_framer]; exact text
  rw [exec_bodyChar arrived body, bodyChar_text text', shifted_framer]

theorem passSlashes_discard (discard : s.lines[l].framer.state = .discard) (j : Nat) : passSlashes s l j = s := by
  induction j with
  | zero => rfl
  | succ j ih =>
    have slash : passOn s l houseSlash = s := by simp only [passOn, discard]
    rw [passSlashes, slash, ih]

/-- R32: text in DISCARD is dropped. -/
theorem exec_discard_text (arrived : arrives s l v (some h) sh) (discard : s.lines[l].framer.state = .discard)
    (text : IsText s.lines[l].framer h) :
    exec (.characterArrives l v true) s = .next (atOnce
      (withLine s l sh (afterText s.lines[l].framer h) s.lines[l].counters)) := by
  have discard' : (shifted s l sh).lines[l].framer.state = .discard := by rw [shifted_framer]; exact discard
  have dropped : passOn (shifted s l sh) l h = shifted s l sh := by simp only [passOn, discard']
  rw [exec_body_text arrived (Or.inr (Or.inr discard)) text, passSlashes_discard discard', dropped,
    rested_modFramer (inService_of_arrives arrived)]

/-- R70: text that cuts the version. -/
theorem exec_copyBody_cut {n : SlotNo} {t : TakeNo} {k : Take} {y : Key} (arrived : arrives s l v (some h) sh)
    (body : s.lines[l].framer.state = .copyBody) (takeRef : s.lines[l].framer.takeRef = some (n, t))
    (text : IsText s.lines[l].framer h) {w : Text} (passed : w = passedText s.lines[l].framer h)
    (take : takeAt s n t = some k) (filling : k.state = .filling)
    (begins : (fillingVersion k).text.length % 64 = 0 ∨ 64 < (fillingVersion k).text.length % 64 + w.length)
    (none : lowestFree s.slots[n].blockMap = none) (key : s.slots[n].key = some y) :
    ∃ u, exec (.characterArrives l v true) s = .next (atOnce u) ∧
      u.slots = modAt s.slots n (withTake t
        (k.extended (w.take ((64 - (fillingVersion k).text.length % 64) % 64))).cutShort) ∧
      u.lines[l] = afterCharacter sh (afterText s.lines[l].framer h) s.lines[l].counters s.lines[l] ∧
      Occurred .takeCut (.keyTake y t) s u ∧ LineOnly l s u := by
  subst passed
  have body' : (shifted s l sh).lines[l].framer.state = .copyBody := by rw [shifted_framer]; exact body
  have takeRef' : (shifted s l sh).lines[l].framer.takeRef = some (n, t) := by rw [shifted_framer]; exact takeRef
  have same := (passOn_same _ l h).after (passSlashes_same (shifted s l sh) l s.lines[l].framer.held.val)
  have cut : passOn (passSlashes (shifted s l sh) l s.lines[l].framer.held.val) l h = _ :=
    (passed_copyBody h s.lines[l].framer.held.val body' takeRef').trans
      (writeText_cuts (s := shifted s l sh) take filling (passedText_nonempty _ _) begins none key)
  have character := exec_body_text arrived (Or.inl body) text
  generalize passOn (passSlashes (shifted s l sh) l s.lines[l].framer.held.val) l h = p at same cut character
  obtain ⟨q, raised, slots, latch⟩ : ∃ q : State, p = raise q .takeCut (.keyTake y t) ∧
      q.slots = modAt s.slots n (withTake t (k.extended ((passedText s.lines[l].framer h).take
        ((64 - (fillingVersion k).text.length % 64) % 64))).cutShort) ∧ q.latch = s.latch := ⟨_, cut, rfl, rfl⟩
  have occurred : Occurred .takeCut (.keyTake y t) s p := by
    rw [raised]
    exact raise_occurred_of_latch latch _ _
  have slots' : p.slots = q.slots := by
    rw [raised]
    exact (raise_report _ _ _).slots
  refine ⟨_, character, slots'.trans slots, ?_, occurred.congr rfl (occurrence_of_latch rfl _),
    ((modFramer_only p l _).after (same.line l)).rested⟩
  · refine rested_line (inService_of_arrives arrived) ?_
    rw [modFramer, modLine_line, same.lines, shifted_line]

end Framer

/-- Settles O13: slashes, text dropped, and text by whether its take is being filled, has room, or finds a block free. -/
theorem bodyCharactersAreWritten : Obligations.BodyCharactersAreWritten := by
  unfold Obligations.BodyCharactersAreWritten
  rintro s l v h sh arrived g rfl body
  refine ⟨?_, ?_, ?_⟩
  · rintro rfl held lineStart
    exact exec_body_slash arrived body held lineStart
  · rintro rfl held
    exact exec_body_second arrived body held
  · rintro text a rfl
    refine ⟨fun discard => exec_discard_text arrived discard text, fun n t k copyBody takeRef take => ⟨fun cut => ?_, ?_⟩⟩
    · have written (u : State) (slots : u.slots = s.slots) : writeText u n t (passedText s.lines[l].framer h) =
          modSlot u n id := by
        rw [writeText_idle ((takeAt_of_slots slots n t).trans take) (cut.trans_ne (by decide)), modSlot,
          modAt_id _ _ _ rfl]
      rw [exec_copyBody_text arrived copyBody takeRef text written, modAt_id _ _ _ rfl]
      rfl
    · rintro filling first w used rfl rfl
      have version : fillingVersion k = k.current := by simp only [fillingVersion, first]
      refine ⟨fun started room => ?_, fun b begins free => ?_, fun y begins none key => ?_⟩
      · have written (u : State) (slots : u.slots = s.slots) : writeText u n t (passedText s.lines[l].framer h) = _ :=
          writeText_extends _ ((takeAt_of_slots slots n t).trans take) filling
            (Or.inr (by rw [version]; exact ⟨started, room⟩))
        rw [exec_copyBody_text arrived copyBody takeRef text written, Take.extended_first first]
        rfl
      · have written (u : State) (slots : u.slots = s.slots) : writeText u n t (passedText s.lines[l].framer h) = _ :=
          writeText_begins _ ((takeAt_of_slots slots n t).trans take) filling (passedText_short _ _)
            (passedText_nonempty _ _) (by rw [version]; exact begins) (by rw [slots]; exact free)
        rw [exec_copyBody_text arrived copyBody takeRef text written, Take.extendedInto_first first]
        rfl
      · have cut := exec_copyBody_cut arrived copyBody takeRef text rfl take filling
          (by rw [version]; exact begins) none key
        rw [version, Take.extended_cutShort_first first] at cut
        exact cut

end Sys2Proof.Machine
/-! ## Closing marks (O14)

R29, R71 to R73, R75, R77: a first arrival ends, and the gate releases it, has it wait, or releases it late. -/

namespace Sys2Proof.Machine

open Sys2Proof

/-! ### The take as it stands at the gate (R71) -/

/-- R71: slot `n` at the front of the recency list, with the numbers `passed` passed and take `t` standing as `k`. -/
def closed (s : State) (n : SlotNo) (t : TakeNo) (passed : Vector Bool 12) (k : Take) : State :=
  { s with
    slots := put s.slots n { s.slots[n] with passed := passed, takes := put s.slots[n].takes t (some k) }
    recency := toFront n s.recency }

section Closed

variable {s : State} {n : SlotNo} {t : TakeNo} {k : Take} {passed : Vector Bool 12}

theorem closed_slot : (closed s n t passed k).slots[n] =
    { s.slots[n] with passed := passed, takes := put s.slots[n].takes t (some k) } := put_same _ n _

theorem takeAt_closed : takeAt (closed s n t passed k) n t = some k := by
  rw [takeAt, closed_slot]
  exact put_same _ t _

theorem closed_only (l : LineNo) : LineOnly l s (closed s n t passed k) :=
  ⟨by constructor <;> simp [closed], fun _ _ => rfl⟩

theorem closed_counted (more : Nat) :
    modAt (closed s n t (put s.slots[n].passed t false) k).slots n (fun x => { x with pendingCount := x.pendingCount + more }) =
      modAt s.slots n fun x =>
        { x with
          passed := put x.passed t false
          takes := put x.takes t (some k)
          pendingCount := x.pendingCount + more } := by
  rw [modAt, closed_slot]
  exact put_put _ n _ _

theorem modSlot_closed {f : Slot → Slot} {p : Vector Bool 12} {k' : Take}
    (becomes : f { s.slots[n] with passed := passed, takes := put s.slots[n].takes t (some k) } =
      { s.slots[n] with passed := p, takes := put s.slots[n].takes t (some k') }) :
    modSlot (closed s n t passed k) n f = closed s n t p k' := by
  have slots : modAt (closed s n t passed k).slots n f = (closed s n t p k').slots := by
    rw [modAt, closed_slot, becomes]
    exact put_put _ n _ _
  exact congrArg (fun slots => { closed s n t p k' with slots := slots }) slots

theorem modTake_closed (f : Take → Take) : modTake (closed s n t passed k) n t f = closed s n t passed (f k) := by
  rw [modTake_eq takeAt_closed]
  exact modSlot_closed (congrArg (fun takes => { s.slots[n] with passed := passed, takes := takes }) (put_put _ t _ _))

theorem takeLeft_closed (take : takeAt s n t = some k) :
    takeLeft s n t false = closed s n t s.slots[n].passed { k with fillingLine := none } := by
  show slotToFront (modTake s n t fun x => { x with fillingLine := none }) n = _
  rw [modTake_eq take]
  rfl

/-- R75: the number leaves the passed set, and the take is marked late. -/
theorem releaseLate_closed : releaseLate (closed s n t passed k) n t =
    releaseTake (closed s n t (put passed t false) { k with late := true }) n t .late [] := by
  rw [releaseLate_eq, modSlot_closed (p := put passed t false) (k' := k) rfl, modTake_closed]

theorem cleared_closed {j : TakeNo} (below : j < t) :
    cleared (closed s n t s.slots[n].passed k).slots[n] j = cleared s.slots[n] j := by
  have other : (put s.slots[n].takes t (some k))[j] = s.slots[n].takes[j] := put_other _ _ (ne_of_lt below)
  rw [closed_slot]
  simp only [cleared, other]

theorem isWaiting_closed {j : TakeNo} (other : j ≠ t) :
    isWaiting (closed s n t passed k).slots[n] j = isWaiting s.slots[n] j := by
  have same : (put s.slots[n].takes t (some k))[j] = s.slots[n].takes[j] := put_other _ _ other
  rw [closed_slot]
  simp only [isWaiting, same]

/-! ### The gate (R72, R75) -/

theorem gate_passed (number : s.slots[n].passed[t] = true) : gate s n t = gateSearch (releaseLate s n t) n := by
  simp only [gate, number, if_true]

theorem gate_clear (number : s.slots[n].passed[t] = false) (clear : ∀ j : TakeNo, j < t → cleared s.slots[n] j = true) :
    gate s n t = gateSearch (releaseTake s n t .new []) n := by
  have lower : lowerCleared s.slots[n] t = true := by
    refine List.all_eq_true.mpr fun j _ => ?_
    by_cases below : j < t
    · rw [clear j below, Bool.or_true]
    · rw [decide_eq_false below]
      rfl
  simp only [gate, number, Bool.false_eq_true, if_false, lower, if_true]

/-- R77, R113: no other take waits, so the records of the one release are all that are made. -/
theorem closed_released {y : Key} {g : Category} {cs : List CircuitNo} (nothing : s.meanwhile = [])
    (idle : IdleCarriesNothing s) (none : ∀ j : TakeNo, isWaiting s.slots[n] j = false) (key : s.slots[n].key = some y)
    (category : s.slots[n].category = some g) (routed : cs = routedSet s g y.agency k.cls) (enough : cs.length ≤ s.freeCount)
    (kind : RecKind) :
    Made n cs (fun x => decide (x = freshRecord n t k.cls kind [])) (closed s n t passed k.released)
      (gateSearch (releaseTake (closed s n t passed k) n t kind []) n) := by
  have key' : (closed s n t passed k).slots[n].key = some y := by rw [closed_slot]; exact key
  have category' : (closed s n t passed k).slots[n].category = some g := by rw [closed_slot]; exact category
  have routed' : cs = routedSet (closed s n t passed k) g y.agency k.cls :=
    routed.trans (routedSet_congr rfl rfl rfl (fun _ => rfl) g y.agency k.cls).symm
  have made := releaseTake_made (s := closed s n t passed k) nothing idle takeAt_closed key' category' routed' enough kind []
  have alone (j : TakeNo) : isWaiting (releaseTake (closed s n t passed k) n t kind []).slots[n] j = false := by
    rw [made.isWaiting, isWaiting_released]
    split
    · rfl
    · next other => rw [isWaiting_closed other, none]
  rw [gateSearch_none alone]
  rw [modTake_closed] at made
  exact made

end Closed

/-! ### The mark at the framer (R29) -/

section Mark

variable {s : State} {l : LineNo} {v : BitVec 7} {sh : Shift} {n : SlotNo} {t : TakeNo} {k : Take}

/-- R71: the closing mark takes a first arrival to the gate. -/
theorem exec_firstClosing (arrived : arrives s l v (some (ch 'E')) sh) (body : s.lines[l].framer.state = .copyBody)
    (takeRef : s.lines[l].framer.takeRef = some (n, t)) (full : s.lines[l].framer.held = 2) (take : takeAt s n t = some k)
    (first : k.replacement = none) :
    exec (.characterArrives l v true) s = .next (atOnce (rested
      (gate (closed (toHunt (shifted s l sh) l) n t s.slots[n].passed { k with fillingLine := none }) n t) l)) := by
  have ends := takeEnds_first (s := toHunt (shifted s l sh) l) take first false
  rw [takeLeft_closed (s := toHunt (shifted s l sh) l) take] at ends
  rw [exec_copyClosing arrived body takeRef full, ends]
  rfl

/-- R29: the framer returns to HUNT. -/
theorem rested_hunted {w : State} (service : lineInService s.lines[l] = true)
    (lines : w.lines = (toHunt (shifted s l sh) l).lines) :
    (rested w l).lines[l] = afterCharacter sh Framer.reset s.lines[l].counters s.lines[l] := by
  refine rested_line service ?_
  rw [lines, toHunt, modFramer, modLine_line, shifted_line]

theorem rested_closed (service : lineInService s.lines[l] = true) (passed : Vector Bool 12) (x : Take) :
    rested (closed (toHunt (shifted s l sh) l) n t passed x) l =
      closed (withLine s l sh Framer.reset s.lines[l].counters) n t passed x := by
  have line := rested_modFramer (sh := sh) (g := fun _ => Framer.reset) service
  exact congrArg (fun u => closed u n t passed x) line

/-- R72: with its lower numbers cleared the take is released. -/
theorem gate_releases {s : State} {k : Take} {passed : Vector Bool 12} (first : k.replacement = none)
    (unfilled : k.fillingLine = none) (number : passed[t] = false)
    (clear : ∀ j : TakeNo, j < t → cleared (closed s n t passed k).slots[n] j = true) :
    TakeIs n t (fun x => StoredWith k.current x ∧ Released x) (gate (closed s n t passed k) n t) := by
  have number' : (closed s n t passed k).slots[n].passed[t] = false := by rw [closed_slot]; exact number
  have stands : TakeIs n t (EndedWith k.current) (closed s n t passed k) :=
    ⟨k, takeAt_closed, ⟨unfilled, first, rfl⟩⟩
  obtain ⟨x, take, stored⟩ := gate_stores stands
  have released : TakeIs n t Released (gate (closed s n t passed k) n t) := by
    rw [gate_clear number' clear]
    exact searchGate_keepsReleased 12 (releaseTake_releases takeAt_closed .new [])
  obtain ⟨x', take', is⟩ := released
  obtain rfl : x' = x := Option.some.inj (take'.symm.trans take)
  exact ⟨x', take, stored, is⟩

/-- R29, R72: the mark of a take whose lower numbers are cleared. -/
theorem closing_releases (service : lineInService s.lines[l] = true) (first : k.replacement = none)
    (number : s.slots[n].passed[t] = false) (clear : ∀ j : TakeNo, j < t → cleared s.slots[n] j = true) {u : State}
    (closes : u = rested
      (gate (closed (toHunt (shifted s l sh) l) n t s.slots[n].passed { k with fillingLine := none }) n t) l) :
    ∃ k', u.lines[l] = afterCharacter sh Framer.reset s.lines[l].counters s.lines[l] ∧
      u.recency = n :: s.recency.filter (fun m => m ≠ n) ∧ takeAt u n t = some k' ∧
      k'.state = .released ∧ k'.releasedFlag = true ∧ k'.fillingLine = none ∧ k'.waitTimer = none ∧
      k'.current = k.current ∧ LineOnly l s u ∧ ∀ m : SlotNo, m ≠ n → slotCore u.slots[m] = slotCore s.slots[m] := by
  let a := closed (toHunt (shifted s l sh) l) n t s.slots[n].passed { k with fillingLine := none }
  have story : StoryOnly n a (gate a n t) := gate_story a n t
  have hunted : LineOnly l (shifted s l sh) a := (closed_only l).after (modFramer_only (shifted s l sh) l _)
  have only : LineOnly l (shifted s l sh) (gate a n t) :=
    LineOnly.after ⟨story.tables, fun m _ => congrArg (fun lines : Vector Line 24 => lines[m]) story.lines⟩ hunted
  obtain ⟨x, take, stored, is⟩ := gate_releases (s := toHunt (shifted s l sh) l) (n := n) (t := t)
    (k := { k with fillingLine := none }) (passed := s.slots[n].passed) first rfl number
    fun j below => (cleared_closed (s := toHunt (shifted s l sh) l) below).trans (clear j below)
  rw [closes]
  refine ⟨x, rested_hunted service story.lines, story.recency, take, is.state, is.flag, stored.fillingLine, is.timer,
    stored.current, only.rested, fun m other => (story.others m other).trans ?_⟩
  exact congrArg slotCore (put_other s.slots _ other)

/-- R73: the mark of a take with a lower number not cleared. -/
theorem closing_waits (service : lineInService s.lines[l] = true) (number : s.slots[n].passed[t] = false)
    (blocked : ∃ j : TakeNo, j < t ∧ cleared s.slots[n] j = false) (waits : s.takeWait ≠ 0) :
    rested (gate (closed (toHunt (shifted s l sh) l) n t s.slots[n].passed { k with fillingLine := none }) n t) l =
      closed (withLine s l sh Framer.reset s.lines[l].counters) n t s.slots[n].passed
        { k with state := .waiting, fillingLine := none, waitTimer := some s.takeWait } := by
  let h := toHunt (shifted s l sh) l
  have number' : (closed h n t s.slots[n].passed { k with fillingLine := none }).slots[n].passed[t] = false := by
    rw [closed_slot]
    exact number
  have blocked' : ∃ j : TakeNo, j < t ∧
      cleared (closed h n t s.slots[n].passed { k with fillingLine := none }).slots[n] j = false := by
    obtain ⟨j, below, notCleared⟩ := blocked
    exact ⟨j, below, (cleared_closed (s := h) below).trans notCleared⟩
  have waiting := gate_waits number' blocked' waits
  rw [modTake_closed] at waiting
  rw [waiting]
  exact rested_closed service s.slots[n].passed _

/-- R75, R77: the gate releases the take with records of `kind`, and its number has left the passed set. -/
theorem gate_ofKind {s : State} {kind : RecKind}
    (way : (s.slots[n].passed[t] = true ∧ kind = .late) ∨ (s.slots[n].passed[t] = false ∧ kind = .new ∧
      ∀ j : TakeNo, j < t → cleared s.slots[n] j = true)) :
    gate (closed s n t s.slots[n].passed k) n t =
      gateSearch (releaseTake (closed s n t (put s.slots[n].passed t false)
        { k with late := k.late || decide (kind = .late) }) n t kind []) n := by
  have slot := closed_slot (s := s) (n := n) (t := t) (k := k) (passed := s.slots[n].passed)
  obtain ⟨number, rfl⟩ | ⟨number, rfl, clear⟩ := way
  · have number' : (closed s n t s.slots[n].passed k).slots[n].passed[t] = true := by rw [slot]; exact number
    rw [gate_passed number', releaseLate_closed, decide_eq_true rfl, Bool.or_true]
  · have number' : (closed s n t s.slots[n].passed k).slots[n].passed[t] = false := by rw [slot]; exact number
    rw [gate_clear number' fun j below => (cleared_closed below).trans (clear j below), put_id number,
      decide_eq_false (by decide), Bool.or_false]

/-- R75, R77, R113: the mark of a take that is released with records of `kind`. -/
theorem closing_records {kind : RecKind} {y : Key} {g : Category} {cs : List CircuitNo}
    (way : (s.slots[n].passed[t] = true ∧ kind = .late) ∨ (s.slots[n].passed[t] = false ∧ kind = .new ∧
      ∀ j : TakeNo, j < t → cleared s.slots[n] j = true))
    (nothing : s.meanwhile = []) (idle : IdleCarriesNothing s) (alone : ∀ j : TakeNo, isWaiting s.slots[n] j = false)
    (key : s.slots[n].key = some y) (category : s.slots[n].category = some g) (routed : cs = routedSet s g y.agency k.cls)
    (enough : cs.length ≤ s.freeCount) :
    ∃ w, gate (closed (toHunt (shifted s l sh) l) n t s.slots[n].passed { k with fillingLine := none }) n t = w ∧
      Made n cs (fun x => decide (x = freshRecord n t k.cls kind []))
        (closed (toHunt (shifted s l sh) l) n t (put s.slots[n].passed t false)
          (Take.released { k with fillingLine := none, late := k.late || decide (kind = .late) })) w := by
  let h := toHunt (shifted s l sh) l
  have gated := gate_ofKind (s := h) (k := { k with fillingLine := none }) way
  have routed' : cs = routedSet h g y.agency k.cls :=
    routed.trans (routedSet_congr rfl rfl rfl (fun _ => rfl) g y.agency k.cls).symm
  have made := closed_released (s := h) (t := t) (k := { k with fillingLine := none, late := k.late || decide (kind = .late) })
    (passed := put s.slots[n].passed t false) nothing idle alone key category routed' enough kind
  exact ⟨_, gated, made⟩

end Mark

/-- Settles O14: the take at the gate is released, has to wait, or is released with the records its number calls for. -/
theorem closingMarksStoreTakes : Obligations.ClosingMarksStoreTakes := by
  unfold Obligations.ClosingMarksStoreTakes
  intro s l v sh n t k arrived body takeRef full take first
  have service := inService_of_arrives arrived
  rw [exec_firstClosing arrived body takeRef full take first]
  refine ⟨fun number clear => ?_, fun number blocked waits => ?_, ?_⟩
  · obtain ⟨k', is⟩ := closing_releases (sh := sh) service first number clear rfl
    exact ⟨_, k', rfl, is⟩
  · rw [closing_waits service number blocked waits]
    rfl
  · intro kind y g cs r way nothing idle alone key category routed enough record
    obtain ⟨w, gated, made⟩ := closing_records (l := l) (sh := sh) way nothing idle alone key category routed enough
    have slots : w.slots = _ := made.slots.trans (closed_counted (s := toHunt (shifted s l sh) l) cs.length)
    rw [gated, record]
    exact ⟨_, rfl, rested_hunted service made.lines, made.freeCount, slots, made.made, made.others⟩

end Sys2Proof.Machine
/-! ## Routing

Which entries of the route table match a release and which of them the scan reaches, and what the requests that edit the
table answer (R94 to R104). -/

namespace Sys2Proof.Machine

open Sys2Proof

/-! ### Sets of circuits -/

theorem mem_members {n : Nat} {v : BitSet n} {i : Fin n} : i ∈ members v ↔ v[i] = true := by simp [members]

theorem unionOf_get {n : Nat} (u v : BitSet n) (i : Fin n) : (unionOf u v)[i] = true ↔ u[i] = true ∨ v[i] = true := by
  rw [unionOf, tabulate_get, Bool.or_eq_true]

/-- R95: what stands in the union of the entries' sets with `u`. -/
theorem unionOfCircuits_get (es : List RouteEntry) (u : CircuitSet) (i : CircuitNo) :
    (es.foldl (fun u e => unionOf u e.circuits) u)[i] = true ↔ u[i] = true ∨ ∃ e ∈ es, e.circuits[i] = true := by
  induction es generalizing u with
  | nil => simp
  | cons e es ih => simp only [List.foldl_cons, ih, unionOf_get, List.exists_mem_cons_iff, or_assoc]

/-! ### Numbers read in range -/

theorem val_of_below {n k : Nat} {i : Fin n} (h : below? n k = some i) : i.val = k := by
  unfold below? at h
  split at h
  · cases h
    rfl
  · cases h

/-- A list with a member that is not in its form. -/
theorem forms_none {α β : Type} {f : α → Option β} {xs : List α} {x : α} (member : x ∈ xs) (h : f x = none) :
    forms f xs = none := by
  induction member with
  | head xs => simp only [forms, h]
  | tail y _ ih =>
    cases first : f y <;> simp only [forms, first, ih]

/-! ### Matching (R94) -/

theorem letterMatches_iff {p : Option Letter} {l : Letter} : letterMatches p l = true ↔ p = none ∨ p = some l := by
  cases p <;> simp [letterMatches]

theorem agencyMatches_iff {p : Option Agency} {a : Agency} : agencyMatches p a = true ↔ p = none ∨ p = some a := by
  cases p <;> simp [agencyMatches]

theorem entryMatches_iff {e : RouteEntry} {g : Category} {a : Agency} {c : Class} :
    entryMatches e g a c = true ↔
      e.inUse = true ∧ (e.cat1 = none ∨ e.cat1 = some g.first) ∧ (e.cat2 = none ∨ e.cat2 = some g.second) ∧
        (e.cat3 = none ∨ e.cat3 = some g.third) ∧ (e.agency = none ∨ e.agency = some a) ∧
        classIdx c ≤ classIdx e.floor := by
  simp only [entryMatches, atOrAbove, Bool.and_eq_true, letterMatches_iff, agencyMatches_iff, decide_eq_true_eq, and_assoc]

/-! ### The scan (R95) -/

section Scan

variable {g : Category} {a : Agency} {c : Class}

theorem scan_cons_other {e : RouteEntry} (other : entryMatches e g a c = false) (es : List RouteEntry) :
    scan g a c (e :: es) = scan g a c es := by
  simp [scan, other]

theorem scan_cons_stop {e : RouteEntry} (found : entryMatches e g a c = true) (stop : e.stop = true)
    (es : List RouteEntry) : scan g a c (e :: es) = [e] := by
  simp [scan, found, stop]

theorem scan_cons_pass {e : RouteEntry} (found : entryMatches e g a c = true) (pass : e.stop = false)
    (es : List RouteEntry) : scan g a c (e :: es) = e :: scan g a c es := by
  simp [scan, found, pass]

/-- The scan of the entries ends at the entry: it matches and its stop flag is set. -/
abbrev stopsScan (g : Category) (a : Agency) (c : Class) (e : RouteEntry) : Prop :=
  entryMatches e g a c = true ∧ e.stop = true

theorem mem_scan_cons {e x : RouteEntry} {es : List RouteEntry} :
    x ∈ scan g a c (e :: es) ↔
      (x = e ∧ entryMatches e g a c = true) ∨ (¬ stopsScan g a c e ∧ x ∈ scan g a c es) := by
  cases found : entryMatches e g a c with
  | false => simp [scan_cons_other found, found]
  | true =>
    cases stop : e.stop with
    | false => simp [scan_cons_pass found stop, stop]
    | true => simp [scan_cons_stop found stop, found, stop]

/-- R95: the scan reaches the matching entries that no entry before them stops it at. -/
theorem mem_scan_iff {es : List RouteEntry} {x : RouteEntry} :
    x ∈ scan g a c es ↔ ∃ k : Nat, es[k]? = some x ∧ entryMatches x g a c = true ∧
      ∀ j < k, ∀ y, es[j]? = some y → ¬ stopsScan g a c y := by
  induction es with
  | nil => simp [scan]
  | cons e es ih =>
    rw [mem_scan_cons, ih]
    refine (or_congr ?_ ?_).trans Nat.or_exists_add_one
    · simp only [List.getElem?_cons_zero, Option.some.injEq, Nat.not_lt_zero, false_implies, implies_true, and_true]
      constructor <;> (rintro ⟨rfl, found⟩; exact ⟨rfl, found⟩)
    · simp only [List.getElem?_cons_succ, Nat.forall_lt_succ_left, List.getElem?_cons_zero, Option.some.injEq,
        forall_eq']
      exact ⟨fun ⟨pass, k, here, found, before⟩ => ⟨k, here, found, pass, before⟩,
        fun ⟨k, here, found, pass, before⟩ => ⟨pass, k, here, found, before⟩⟩

theorem scan_eq_nil_iff {es : List RouteEntry} :
    scan g a c es = [] ↔ ∀ e ∈ es, entryMatches e g a c = false := by
  induction es with
  | nil => simp [scan]
  | cons e es ih =>
    cases found : entryMatches e g a c with
    | false => simp [scan_cons_other found, ih, found]
    | true => cases stop : e.stop <;> simp [scan_cons_stop, scan_cons_pass, found, stop]

/-- R95: the scan of the table, by the numbers of the entries. -/
theorem mem_scan_routes {s : State} {x : RouteEntry} :
    x ∈ scan g a c s.routes.toList ↔ ∃ n : EntryNo, s.routes[n] = x ∧ entryMatches x g a c = true ∧
      ∀ m : EntryNo, m < n → ¬ stopsScan g a c s.routes[m] := by
  simp only [mem_scan_iff, Vector.getElem?_toList, Vector.getElem?_eq_some_iff]
  constructor
  · rintro ⟨k, ⟨inRange, here⟩, found, before⟩
    exact ⟨⟨k, inRange⟩, here, found, fun m below => before m below _ ⟨m.isLt, rfl⟩⟩
  · rintro ⟨n, here, found, before⟩
    refine ⟨n, ⟨n.isLt, here⟩, found, ?_⟩
    rintro j below y ⟨inRange, rfl⟩
    exact before ⟨j, inRange⟩ below

theorem scan_routes_eq_nil_iff {s : State} :
    scan g a c s.routes.toList = [] ↔ ∀ n : EntryNo, entryMatches s.routes[n] g a c = false := by
  simp only [scan_eq_nil_iff, Vector.mem_toList_iff, Vector.mem_iff_getElem]
  constructor
  · exact fun unmatched n => unmatched _ ⟨n, n.isLt, rfl⟩
  · rintro unmatched x ⟨k, inRange, rfl⟩
    exact unmatched ⟨k, inRange⟩

/-- R95, R96: the match set, or the default set if the scan finds no entry. -/
theorem matchSet_getD_get {s : State} {i : CircuitNo} (d : CircuitSet) :
    ((matchSet s g a c).getD d)[i] = true ↔
      (∃ e ∈ scan g a c s.routes.toList, e.circuits[i] = true) ∨ (scan g a c s.routes.toList = [] ∧ d[i] = true) := by
  unfold matchSet
  cases scan g a c s.routes.toList with
  | nil => simp
  | cons e es =>
    rw [Option.getD_some, unionOfCircuits_get]
    simp [noneOf]

/-- R96: the routed set holds the circuits in service of the set before, and for a FLASH also those of the flash set. -/
theorem mem_routedSet_iff {s : State} {i : CircuitNo} :
    i ∈ routedSet s g a c ↔ circuitInService s.circuits[i] = true ∧
      (((matchSet s g a c).getD s.defaultSet)[i] = true ∨ (c = .flash ∧ s.flashSet[i] = true)) := by
  rw [routedSet, List.mem_filter, mem_members, and_comm]
  refine and_congr_right fun _ => ?_
  split
  · next flash => simp only [unionOf_get, flash, true_and]
  · next other => simp only [other, false_and, or_false]

end Scan

/-- Settles O24: the routed set is read off the scan, whose entries are known by their numbers. -/
theorem routingMatchesAndScans : Obligations.RoutingMatchesAndScans := by
  unfold Obligations.RoutingMatchesAndScans
  refine ⟨fun e g a c => entryMatches_iff, fun s g a c i => ?_⟩
  rw [mem_routedSet_iff, matchSet_getD_get, scan_routes_eq_nil_iff, or_assoc]
  refine and_congr_right fun _ => or_congr_left ?_
  simp only [mem_scan_routes]
  constructor
  · rintro ⟨_, ⟨n, rfl, found, before⟩, member⟩
    exact ⟨n, found, member, before⟩
  · rintro ⟨n, found, member, before⟩
    exact ⟨_, ⟨n, rfl, found, before⟩, member⟩

/-! ### Operands of the editing requests (R98, R99) -/

section Operands

variable {s : State} {n : EntryNo} {en : Text}

theorem entryForm_of_named (entry : entryNamed en = some n) : entryForm en = some n.val := by
  obtain ⟨k, form, range⟩ := Option.bind_eq_some_iff.mp entry
  rw [form, val_of_below range]

/-- R98: the level of a request on one entry. -/
theorem entryLevel_named (entry : entryNamed en = some n) (ops : List Text) :
    entryLevel (en :: ops) s = max 2 s.routes[n].editLevel.val := by
  simp only [entryLevel, entry]

/-- R98: ROUTE's level, its edit level written as a digit 0–3. -/
theorem routeLevel_named {cat ag fl cs st lv : Text} {v : Level} (entry : entryNamed en = some n)
    (level : oneDigit lv = some v.val) :
    routeLevel [en, cat, ag, fl, cs, st, lv] s = max (max 2 s.routes[n].editLevel.val) v.val := by
  have written : writtenLevel [en, cat, ag, fl, cs, st, lv] = v.val := by
    simp [writtenLevel, writtenLevel.levelDigit, level, Nat.le_of_lt_succ v.isLt]
  simp only [routeLevel, entry, written]

theorem circuitsInRange_none {l : List Nat} (above : ∃ k ∈ l, 16 ≤ k) : circuitsInRange l = none := by
  obtain ⟨k, member, above⟩ := above
  exact forms_none member (below_none above)

theorem circuitListOf_form {cs : Text} (form : listForm circuitForm cs = none) : circuitListOf [cs] = .error .form := by
  simp only [circuitListOf, form]

theorem circuitListOf_range {cs : Text} {l : List Nat} (form : listForm circuitForm cs = some l)
    (above : ∃ k ∈ l, 16 ≤ k) : circuitListOf [cs] = .error .range := by
  simp only [circuitListOf, form, circuitsInRange_none above]

theorem circuitListOf_set {cs : Text} {l : List CircuitNo} (form : listForm circuitForm cs = some (l.map Fin.val)) :
    circuitListOf [cs] = .ok (setOf l) := by
  simp only [circuitListOf, form, circuitsInRange, forms_below]

end Operands

/-- R98: what a request answers is told by its required level at the moment it is executed. -/
theorem runRequest_level {verb : String} {lvl : State → Nat} {body : State → State × Answer} {ops : List Text} {s : State}
    {n : Nat} (level : lvl s = n) : runRequest verb lvl body ops s = runRequest verb (fun _ => n) body ops s := by
  rw [← level]
  rfl

/-! ### ROUTE and ROUTEOFF (R100, R101) -/

section Entry

variable {s : State} {n : EntryNo} {en : Text}

theorem bodyRoute_done {cat ag fl cs st lv : Text} {p1 p2 p3 : Option Letter} {a : Option Agency} {f : Machine.Class}
    {l : List CircuitNo} {stop : Bool} {v : Level} (entry : entryNamed en = some n)
    (pattern : patternForm cat = some (p1, p2, p3)) (agency : agencyForm ag = some a) (floor : classForm fl = some f)
    (circuits : listForm circuitForm cs = some (l.map Fin.val)) (flag : stopFlagForm st = some stop)
    (level : oneDigit lv = some v.val) {e : RouteEntry}
    (written : e = { inUse := true, cat1 := p1, cat2 := p2, cat3 := p3, agency := a, floor := f, circuits := setOf l
                     stop := stop, editLevel := v }) :
    bodyRoute [en, cat, ag, fl, cs, st, lv] s = done (setEntry s n fun _ => e) (entryToks2 e) := by
  subst written
  simp only [bodyRoute, routeForms, entryForm_of_named entry, pattern, agency, floor, circuits, flag, level, below_val,
    circuitsInRange, forms_below]

theorem bodyRouteoff_done (entry : entryNamed en = some n) :
    bodyRouteoff [en] s = done (setEntry s n fun _ => RouteEntry.unused)
      [if s.routes[n].inUse then txt "USED" else txt "UNUSED"] := by
  simp only [bodyRouteoff, entryForm_of_named entry, below_val]

end Entry

/-- Settles O25: the operands are in their forms and in range, so each body writes the entry. -/
theorem routeEntriesAreWritten : Obligations.RouteEntriesAreWritten := by
  unfold Obligations.RouteEntriesAreWritten
  refine fun s n en entry => ⟨?_, fun turn => ?_⟩
  · intro cat ag fl cs st lv p1 p2 p3 a f l stop v pattern agency floor circuits flag level turn
    exact (runRequest_level (routeLevel_named entry level)).trans
      (runRequest_done turn (bodyRoute_done entry pattern agency floor circuits flag level rfl))
  · exact (runRequest_level (entryLevel_named entry [])).trans
      (runRequest_done turn (bodyRouteoff_done (s := popLine s) entry))

/-! ### MARK, UNMARK, FLIP and TEST (R99, R102, R103) -/

section Membership

variable {s : State} {n : EntryNo} {c : CircuitNo} {en cn : Text} (entry : entryNamed en = some n)
  (circuit : circuitForm cn = some c.val) (f : Bool → Bool)

include entry circuit

theorem membership_inUse (used : s.routes[n].inUse = true) :
    membership f [en, cn] s =
      done (setEntry s n fun x => { x with circuits := put x.circuits c (f s.routes[n].circuits[c]) })
        [inOutTok s.routes[n].circuits[c]] := by
  simp only [membership, entryForm_of_named entry, circuit, below_val, used, if_true]
  rfl

theorem membership_absent (unused : s.routes[n].inUse = false) :
    membership f [en, cn] s = refuse s .absent := by
  simp only [membership, entryForm_of_named entry, circuit, below_val, unused, Bool.false_eq_true, if_false]

/-- R99, R102, R103: what a request on one circuit answers, at its required level. -/
theorem runRequest_membership {verb : String} {lvl : State → Nat} {k : Nat} (level : lvl s = k)
    (turn : serves s verb k [en, cn]) :
    (s.routes[n].inUse = true → runRequest verb lvl (membership f [en, cn]) [en, cn] s = .next
      (replied (setEntry (popLine s) n fun x => { x with circuits := put x.circuits c (f s.routes[n].circuits[c]) })
        (txt verb) .done [inOutTok s.routes[n].circuits[c]])) ∧
    (s.routes[n].inUse = false → runRequest verb lvl (membership f [en, cn]) [en, cn] s = .next
      (replied (popLine s) (txt verb) (.refused .absent) [])) := by
  rw [runRequest_level level]
  exact ⟨fun used => runRequest_done turn (membership_inUse (s := popLine s) entry circuit f used),
    fun unused => runRequest_refused turn (membership_absent (s := popLine s) entry circuit f unused)⟩

end Membership

/-- R103: writing the membership as it stands changes nothing. -/
theorem setEntry_membership_id (s : State) (n : EntryNo) (c : CircuitNo) :
    (setEntry s n fun x => { x with circuits := put x.circuits c s.routes[n].circuits[c] }) = s := by
  unfold setEntry
  rw [modAt_id _ _ _ (by rw [put_id rfl])]

/-! ### DEFAULTS and FLASHSET (R104) -/

section Sets

variable {s : State} {cs : Text}

theorem bodyDefaults_refuse {r : Reason} (list : circuitListOf [cs] = .error r) :
    bodyDefaults [cs] s = refuse s r := by
  simp only [bodyDefaults, list]

theorem bodyDefaults_done {u : CircuitSet} (list : circuitListOf [cs] = .ok u) :
    bodyDefaults [cs] s = done { s with defaultSet := u } [circuitSetTok s.defaultSet, circuitSetTok u] := by
  simp only [bodyDefaults, list]

theorem bodyFlashset_refuse {r : Reason} (list : circuitListOf [cs] = .error r) :
    bodyFlashset [cs] s = refuse s r := by
  simp only [bodyFlashset, list]

theorem bodyFlashset_done {u : CircuitSet} (list : circuitListOf [cs] = .ok u) :
    bodyFlashset [cs] s = done { s with flashSet := u } [circuitSetTok s.flashSet, circuitSetTok u] := by
  simp only [bodyFlashset, list]

end Sets

/-- Settles O26: the requests on one circuit are one body with four changes of the membership, TEST's being none; the two
sets are replaced by the list as it is judged. -/
theorem circuitSetsAreChangedAndRead : Obligations.CircuitSetsAreChangedAndRead := by
  unfold Obligations.CircuitSetsAreChangedAndRead
  refine ⟨?_, fun s cs => ⟨fun turn => ⟨?_, ?_, ?_⟩, fun turn => ⟨?_, ?_, ?_⟩⟩⟩
  · rintro s n c en cn entry circuit _ rfl _ rfl
    have level := entryLevel_named (s := s) entry [cn]
    refine ⟨runRequest_membership entry circuit (fun _ => true) level,
      runRequest_membership entry circuit (fun _ => false) level, runRequest_membership entry circuit not level,
      fun turn => ?_⟩
    have unchanged : (setEntry (popLine s) n fun x => { x with circuits := put x.circuits c (id s.routes[n].circuits[c]) }) =
        popLine s := setEntry_membership_id (popLine s) n c
    have read := runRequest_membership entry circuit id (lvl := fun _ => 1) rfl turn
    rw [unchanged] at read
    exact read
  · exact fun form => runRequest_refused turn (bodyDefaults_refuse (circuitListOf_form form))
  · exact fun l form above => runRequest_refused turn (bodyDefaults_refuse (circuitListOf_range form above))
  · exact fun l form => runRequest_done turn (bodyDefaults_done (s := popLine s) (circuitListOf_set form))
  · exact fun form => runRequest_refused turn (bodyFlashset_refuse (circuitListOf_form form))
  · exact fun l form above => runRequest_refused turn (bodyFlashset_refuse (circuitListOf_range form above))
  · exact fun l form => runRequest_done turn (bodyFlashset_done (s := popLine s) (circuitListOf_set form))

end Sys2Proof.Machine
/-! ## The ranges, the latch and the pool (O50, O52)

R106, R128, R162, R172, R179 and R110 of every step. As in the books of the store, a record may within a step have left its
circuit and not yet have been put down: it is in hand. `Confines` says of an operation, part by part, that it leaves the
part within its ranges, the ages of the records in hand included, and `Upkeep` that it also leaves the pool at 192, those
in hand counted. Both compose, so each operation is followed once. -/

namespace Sys2Proof.Machine

open Sys2Proof

/-! ### What is kept, part by part -/

/-- R106, R89, R200: the precedence table, the window and the take wait limit. -/
structure TablesFit (p : Vector PrecRow 5) (m : Mode) (wait : Nat) : Prop where
  bases : basesInRange p = true ∧ basesDecrease p = true
  climbs : ∀ i : Fin 5, p[i].climb ≤ 15
  window : m.windowFirst ≤ m.windowLast
  takeWait : wait ≤ 255

/-- R1, R20. -/
def Line.Fits (x : Line) : Prop := x.desc.silenceLimit ≤ 255 ∧ x.framer.header.length ≤ 64

/-- R13. -/
def LineCounters.AtMostTop (k : LineCounters) : Prop :=
  k.messagesTaken ≤ 65535 ∧ k.headerFaults ≤ 65535 ∧ k.framing ≤ 65535 ∧ k.duplicates ≤ 65535 ∧ k.refused ≤ 65535 ∧
    k.stray ≤ 65535

/-- R128. -/
def CircuitDesc.Fits (d : CircuitDesc) : Prop := 20 ≤ d.carriage ∧ d.carriage ≤ 120 ∧ d.motorDelay ≤ 255 ∧ d.runOn ≤ 255

/-- R155. -/
def Sender.AtMostTop (x : Sender) : Prop := x.completed ≤ 65535 ∧ x.missed ≤ 65535 ∧ x.breaksIn ≤ 65535

/-- R162, R172. -/
def Mgmt.Fits (m : Mgmt) : Prop := m.lines.length ≤ 16 ∧ m.collecting.length ≤ 96 ∧ m.reports.length ≤ 8

/-- R60. -/
def Slot.AtMostTop (x : Slot) : Prop := ∀ (t : TakeNo) (k : Take), x.takes[t] = some k → k.subCount ≤ 15

/-- R179: an entry of the latch while the alert mode stands as `alert`. -/
structure LatchEntry.Sound (alert : Bool) (e : LatchEntry) : Prop where
  clear : e.latched = false → e.detail = none ∧ e.count = 0 ∧ e.owed = false
  latched : e.latched = true → e.detail ≠ none ∧ 1 ≤ e.count
  owed : e.owed = true → e.latched = true ∧ e.masked = false ∧ alert = true

def Latch.Sound (x : Latch) : Prop := ∀ k : Fin 12, x.entries[k].Sound x.alertMode

def Latch.AtMostTop (x : Latch) : Prop := ∀ k : Fin 12, x.entries[k].count ≤ 255

/-- The ages of the records of a list. -/
def agesOf (l : List Rec) : Multiset Nat := ↑(l.map Rec.age)

/-- R109. -/
def Aged (l : List Rec) : Prop := ∀ a ∈ agesOf l, a ≤ 4095

theorem tablesSound_iff {s : State} : TablesSound s ↔ TablesFit s.precedence s.mode s.takeWait ∧
    (∀ l : LineNo, s.lines[l].Fits) ∧ (∀ c : CircuitNo, s.circuits[c].desc.Fits) ∧ s.mgmt.Fits :=
  ⟨fun h => ⟨⟨h.bases, h.climbs, h.window, h.takeWait⟩, fun l => ⟨h.silence l, h.headers l⟩, h.circuits,
    h.message.1, h.message.2, h.reports⟩,
  fun ⟨tables, lines, circuits, message⟩ => ⟨tables.bases, tables.climbs, tables.window, tables.takeWait,
    fun l => (lines l).1, fun l => (lines l).2, circuits, ⟨message.1, message.2.1⟩, message.2.2⟩⟩

theorem latchSound_iff {s : State} : LatchSound s ↔ s.latch.Sound :=
  ⟨fun h k => ⟨h.clear k, h.latched k, h.owed k⟩,
    fun h => ⟨fun k => (h k).clear, fun k => (h k).latched, fun k => (h k).owed⟩⟩

theorem aged_iff {l : List Rec} : Aged l ↔ ∀ r ∈ l, r.age ≤ 4095 := by simp [Aged, agesOf]

theorem aged_records_iff {x : Circuit} : Aged x.records ↔ (∀ r ∈ x.queue, r.age ≤ 4095) ∧
    (∀ r ∈ x.sender.chain, r.age ≤ 4095) ∧ ∀ r, x.sender.carried = .record r → r.age ≤ 4095 := by
  have carried : (∀ r ∈ x.sender.carried.records, r.age ≤ 4095) ↔ ∀ r, x.sender.carried = .record r → r.age ≤ 4095 := by
    cases x.sender.carried <;> simp [Carried.records]
  rw [aged_iff, Circuit.records, List.forall_mem_append, List.forall_mem_append, carried]
  exact and_congr_right fun _ => and_comm

theorem countersSound_iff {s : State} : CountersSound s ↔ (∀ l : LineNo, s.lines[l].counters.AtMostTop) ∧
    (∀ c : CircuitNo, s.circuits[c].sender.AtMostTop ∧ Aged s.circuits[c].records) ∧ s.latch.AtMostTop ∧
    ∀ n : SlotNo, s.slots[n].AtMostTop :=
  ⟨fun h => ⟨h.lines, fun c => ⟨h.circuits c, aged_records_iff.mpr (h.ages c)⟩, h.repeats, h.substitutes⟩,
  fun ⟨lines, circuits, repeats, takes⟩ => ⟨lines, fun c => (circuits c).1, repeats,
    fun c => aged_records_iff.mp (circuits c).2, takes⟩⟩

/-! ### Ages of records -/

theorem agesOf_append (l m : List Rec) : agesOf (l ++ m) = agesOf l + agesOf m := by simp [agesOf]

theorem agesOf_cons (r : Rec) (l : List Rec) : agesOf (r :: l) = agesOf [r] + agesOf l := agesOf_append [r] l

@[simp] theorem agesOf_nil : agesOf [] = 0 := rfl

theorem agesOf_perm {l m : List Rec} (h : l.Perm m) : agesOf l = agesOf m := Multiset.coe_eq_coe.mpr (h.map _)

theorem agesOf_congr {r r' : Rec} (h : r'.age = r.age) : agesOf [r'] = agesOf [r] := by
  simp only [agesOf, List.map_cons, List.map_nil, h]

theorem agesOf_map {g : Rec → Rec} (h : ∀ r, (g r).age = r.age) (l : List Rec) : agesOf (l.map g) = agesOf l := by
  have : Rec.age ∘ g = Rec.age := funext h
  rw [agesOf, List.map_map, this, agesOf]

theorem agesOf_filter (p : Rec → Bool) (l : List Rec) :
    agesOf (l.filter p) + agesOf (l.filter fun r => !p r) = agesOf l := by
  rw [← agesOf_append]
  exact agesOf_perm (List.filter_append_perm p l)

theorem agesOf_withoutAt {q : List Rec} {i : Nat} {r : Rec} (h : q[i]? = some r) :
    agesOf q = agesOf [r] + agesOf (withoutAt q i) := by
  obtain ⟨bound, rfl⟩ := List.getElem?_eq_some_iff.mp h
  rw [← agesOf_cons]
  exact (agesOf_perm (List.getElem_cons_eraseIdx_perm bound)).symm

theorem card_agesOf (l : List Rec) : (agesOf l).card = l.length := by simp [agesOf]

theorem Circuit.agesOf_records (x : Circuit) :
    agesOf x.records = agesOf x.queue + (agesOf x.sender.carried.records + agesOf x.sender.chain) := by
  rw [Circuit.records, agesOf_append, agesOf_append]

theorem recordsOn_all (x : Circuit) : recordsOn (fun _ => true) x = x.records.length := by
  rw [recordsOn, carriedCount_eq, Circuit.records, List.filter_true, List.filter_true, List.filter_true, List.length_append,
    List.length_append, Nat.add_assoc]

/-! ### The pool (R110) -/

/-- The number of records on the circuits. -/
def standing (v : Vector Circuit 16) : Nat := ∑ c : CircuitNo, v[c].records.length

/-- R110: free records, those on the circuits and those in hand are 192. -/
structure PoolBooks (g : List Rec) (free : Nat) (v : Vector Circuit 16) : Prop where
  total : free + standing v + g.length = 192
  idle : ∀ c : CircuitNo, v[c].Idle

theorem poolSound_iff {s : State} : PoolSound s ↔ PoolBooks [] s.freeCount s.circuits := by
  have all : recordsWhere (fun _ => true) s = standing s.circuits := by
    rw [recordsWhere, standing, Fin.sum_univ_def]
    exact congrArg List.sum (List.map_congr_left fun c _ => recordsOn_all s.circuits[c])
  constructor
  · intro h
    have total := h.total
    rw [all] at total
    exact ⟨by rw [List.length_nil, Nat.add_zero]; exact total, h.idle⟩
  · intro h
    have total := h.total
    rw [← all, List.length_nil, Nat.add_zero] at total
    exact ⟨total, h.idle⟩

/-! ### What an operation leaves -/

/-- An operation that leaves each part within its ranges; the records in hand become `h` from `g`. -/
structure Confines (g : List Rec) (s : State) (h : List Rec) (u : State) : Prop where
  tables : TablesFit s.precedence s.mode s.takeWait → TablesFit u.precedence u.mode u.takeWait
  lines : (∀ l : LineNo, s.lines[l].Fits) → ∀ l : LineNo, u.lines[l].Fits
  lineCounters : (∀ l : LineNo, s.lines[l].counters.AtMostTop) → ∀ l : LineNo, u.lines[l].counters.AtMostTop
  descs : (∀ c : CircuitNo, s.circuits[c].desc.Fits) → ∀ c : CircuitNo, u.circuits[c].desc.Fits
  counters : (∀ c : CircuitNo, s.circuits[c].sender.AtMostTop) → ∀ c : CircuitNo, u.circuits[c].sender.AtMostTop
  ages : (∀ c : CircuitNo, Aged s.circuits[c].records) ∧ Aged g → (∀ c : CircuitNo, Aged u.circuits[c].records) ∧ Aged h
  message : s.mgmt.Fits → u.mgmt.Fits
  takes : (∀ n : SlotNo, s.slots[n].AtMostTop) → ∀ n : SlotNo, u.slots[n].AtMostTop
  repeats : s.latch.AtMostTop → u.latch.AtMostTop
  latch : s.latch.Sound → u.latch.Sound

/-- An operation that also leaves the pool at 192. -/
structure Upkeep (g : List Rec) (s : State) (h : List Rec) (u : State) : Prop extends Confines g s h u where
  pool : PoolBooks g s.freeCount s.circuits → PoolBooks h u.freeCount u.circuits

/-- An operation that takes nothing in hand, and puts nothing down. -/
def Sustains (s u : State) : Prop := ∀ g, Upkeep g s g u

theorem Confines.trans {f g h : List Rec} {s t u : State} (a : Confines f s g t) (b : Confines g t h u) : Confines f s h u where
  tables := b.tables ∘ a.tables
  lines := b.lines ∘ a.lines
  lineCounters := b.lineCounters ∘ a.lineCounters
  descs := b.descs ∘ a.descs
  counters := b.counters ∘ a.counters
  ages := b.ages ∘ a.ages
  message := b.message ∘ a.message
  takes := b.takes ∘ a.takes
  repeats := b.repeats ∘ a.repeats
  latch := b.latch ∘ a.latch

theorem Upkeep.trans {f g h : List Rec} {s t u : State} (a : Upkeep f s g t) (b : Upkeep g t h u) : Upkeep f s h u :=
  ⟨a.toConfines.trans b.toConfines, b.pool ∘ a.pool⟩

theorem Upkeep.refl (g : List Rec) (s : State) : Upkeep g s g s := ⟨⟨id, id, id, id, id, id, id, id, id, id⟩, id⟩

theorem Sustains.refl (s : State) : Sustains s s := fun g => .refl g s

theorem Sustains.trans {s t u : State} (a : Sustains s t) (b : Sustains t u) : Sustains s u := fun g => (a g).trans (b g)

theorem foldl_sustains {α : Type} (f : State → α → State) (h : ∀ s a, Sustains s (f s a)) (l : List α) (s : State) :
    Sustains s (l.foldl f s) := foldl_keeps Sustains .refl .trans f h l s

/-! ### Changes of the tables, and of a line, a message, a slot or an entry -/

/-- The parts with ranges are as they were. -/
structure SameParts (s u : State) : Prop where
  precedence : u.precedence = s.precedence := by rfl
  mode : u.mode = s.mode := by rfl
  takeWait : u.takeWait = s.takeWait := by rfl
  lines : u.lines = s.lines := by rfl
  circuits : u.circuits = s.circuits := by rfl
  mgmt : u.mgmt = s.mgmt := by rfl
  slots : u.slots = s.slots := by rfl
  latch : u.latch = s.latch := by rfl
  freeCount : u.freeCount = s.freeCount := by rfl

theorem SameParts.sustains {s u : State} (h : SameParts s u) : Sustains s u := by
  obtain ⟨precedence, mode, takeWait, lines, circuits, mgmt, slots, latch, freeCount⟩ := h
  refine fun g => ⟨⟨?_, ?_, ?_, ?_, ?_, ?_, ?_, ?_, ?_, ?_⟩, ?_⟩
  · rw [precedence, mode, takeWait]; exact id
  · rw [lines]; exact id
  · rw [lines]; exact id
  · rw [circuits]; exact id
  · rw [circuits]; exact id
  · rw [circuits]; exact id
  · rw [mgmt]; exact id
  · rw [slots]; exact id
  · rw [latch]; exact id
  · rw [latch]; exact id
  · rw [freeCount, circuits]; exact id

theorem all_modAt {α : Type} {n : Nat} {P : α → Prop} {v : Vector α n} {i : Fin n} {f : α → α} (here : P v[i] → P (f v[i]))
    (all : ∀ j : Fin n, P v[j]) (j : Fin n) : P (modAt v i f)[j] := by
  rw [modAt_get]
  split
  · next e => subst e; exact here (all j)
  · exact all j

theorem all_mapAll {α β : Type} {n : Nat} {P : α → Prop} {Q : β → Prop} {v : Vector α n} {f : α → β}
    (each : ∀ x, P x → Q (f x)) (all : ∀ j : Fin n, P v[j]) (j : Fin n) : Q (mapAll v f)[j] := by
  rw [mapAll_get]
  exact each _ (all j)

theorem modLine_sustains {s : State} {l : LineNo} {f : Line → Line} (fits : s.lines[l].Fits → (f s.lines[l]).Fits)
    (counters : s.lines[l].counters.AtMostTop → (f s.lines[l]).counters.AtMostTop) : Sustains s (modLine s l f) :=
  fun g => { Upkeep.refl g s with
    lines := all_modAt fits
    lineCounters := all_modAt (P := fun x : Line => x.counters.AtMostTop) counters }

theorem modMgmt_sustains {s : State} {f : Mgmt → Mgmt} (fits : s.mgmt.Fits → (f s.mgmt).Fits) : Sustains s (modMgmt s f) :=
  fun g => { Upkeep.refl g s with message := fits }

theorem modSlot_sustains {s : State} {n : SlotNo} {f : Slot → Slot} (top : s.slots[n].AtMostTop → (f s.slots[n]).AtMostTop) :
    Sustains s (modSlot s n f) :=
  fun g => { Upkeep.refl g s with takes := all_modAt top }

theorem modEntry_sustains {s : State} {k : EventKind} {f : LatchEntry → LatchEntry}
    (top : (entryOf s k).count ≤ 255 → (f (entryOf s k)).count ≤ 255)
    (sound : (entryOf s k).Sound s.latch.alertMode → (f (entryOf s k)).Sound s.latch.alertMode) :
    Sustains s (modEntry s k f) :=
  fun g => { Upkeep.refl g s with
    repeats := all_modAt (P := fun e : LatchEntry => e.count ≤ 255) top
    latch := all_modAt (P := LatchEntry.Sound s.latch.alertMode) sound }

/-- A record is taken from the pool, or returned to it. -/
theorem freeCount_upkeep {g h : List Rec} {s : State} {k : Nat} (aged : Aged g → Aged h)
    (total : k + h.length = s.freeCount + g.length) :
    Upkeep g s h { s with freeCount := k } :=
  { Upkeep.refl g s with
    ages := fun a => ⟨a.1, aged a.2⟩
    pool := fun b => ⟨by
      have before := b.total
      show k + standing s.circuits + h.length = 192
      omega, b.idle⟩ }

/-! ### Changes of a circuit -/

/-- A circuit changes, and what leaves it or comes to it is in hand; its ranges stand. -/
structure Circuit.Confined (g : List Rec) (x : Circuit) (h : List Rec) (y : Circuit) : Prop where
  desc : x.desc.Fits → y.desc.Fits
  counters : x.sender.AtMostTop → y.sender.AtMostTop
  ages : agesOf y.records + agesOf h ⊆ agesOf x.records + agesOf g

/-- The same, with no record made or lost. -/
structure Circuit.Exchanges (g : List Rec) (x : Circuit) (h : List Rec) (y : Circuit) : Prop
    extends Circuit.Confined g x h y where
  number : x.Idle → y.records.length + h.length = x.records.length + g.length
  idle : x.Idle → y.Idle

theorem Circuit.Exchanges.of_ages {g h : List Rec} {x y : Circuit} (desc : x.desc.Fits → y.desc.Fits)
    (counters : x.sender.AtMostTop → y.sender.AtMostTop)
    (ages : agesOf y.records + agesOf h = agesOf x.records + agesOf g) (idle : x.Idle → y.Idle) :
    Circuit.Exchanges g x h y := by
  refine ⟨⟨desc, counters, ages ▸ Multiset.Subset.refl _⟩, fun _ => ?_, idle⟩
  have cards := congrArg Multiset.card ages
  simpa only [Multiset.card_add, card_agesOf] using cards

theorem aged_of_subset {g h : List Rec} {x y : Circuit} (ages : agesOf y.records + agesOf h ⊆ agesOf x.records + agesOf g)
    (old : Aged x.records ∧ Aged g) : Aged y.records ∧ Aged h := by
  have all (a : Nat) (mem : a ∈ agesOf y.records + agesOf h) : a ≤ 4095 :=
    (Multiset.mem_add.mp (ages mem)).elim (old.1 a) (old.2 a)
  exact ⟨fun a mem => all a (Multiset.mem_add.mpr (.inl mem)), fun a mem => all a (Multiset.mem_add.mpr (.inr mem))⟩

theorem modCircuit_confines {g h : List Rec} {s : State} {c : CircuitNo} {f : Circuit → Circuit}
    (change : Circuit.Confined g s.circuits[c] h (f s.circuits[c])) : Confines g s h (modCircuit s c f) :=
  { (Upkeep.refl g s).toConfines with
    descs := all_modAt (P := fun x : Circuit => x.desc.Fits) change.desc
    counters := all_modAt (P := fun x : Circuit => x.sender.AtMostTop) change.counters
    ages := fun a =>
      have changed := aged_of_subset change.ages ⟨a.1 c, a.2⟩
      ⟨all_modAt (P := fun x : Circuit => Aged x.records) (fun _ => changed.1) a.1, changed.2⟩ }

theorem modCircuit_upkeep {g h : List Rec} {s : State} {c : CircuitNo} {f : Circuit → Circuit}
    (change : Circuit.Exchanges g s.circuits[c] h (f s.circuits[c])) : Upkeep g s h (modCircuit s c f) := by
  refine ⟨modCircuit_confines change.toConfined, fun b => ⟨?_, all_modAt change.idle b.idle⟩⟩
  have sums : standing (modAt s.circuits c f) + s.circuits[c].records.length =
      standing s.circuits + (f s.circuits[c]).records.length := sum_modAt s.circuits c f fun x => x.records.length
  have number := change.number (b.idle c)
  have before := b.total
  show s.freeCount + standing (modAt s.circuits c f) + h.length = 192
  omega

theorem OnlyCircuit.eq_modCircuit {c : CircuitNo} {s u : State} (only : OnlyCircuit c s u) :
    u = modCircuit s c fun _ => u.circuits[c] := by
  unfold OnlyCircuit at only
  have here := (congrArg (fun v : State => v.circuits[c]) only).trans (modAt_same s.circuits c _)
  conv_lhs => rw [only]
  refine congrArg (fun v => { s with circuits := v }) (congrArg (Vector.set s.circuits c.val · c.isLt) ?_)
  exact here.symm

theorem OnlyCircuit.confines {g h : List Rec} {c : CircuitNo} {s u : State} (only : OnlyCircuit c s u)
    (change : Circuit.Confined g s.circuits[c] h u.circuits[c]) : Confines g s h u := by
  rw [only.eq_modCircuit]
  exact modCircuit_confines change

theorem OnlyCircuit.upkeep {g h : List Rec} {c : CircuitNo} {s u : State} (only : OnlyCircuit c s u)
    (change : Circuit.Exchanges g s.circuits[c] h u.circuits[c]) : Upkeep g s h u := by
  rw [only.eq_modCircuit]
  exact modCircuit_upkeep change

/-- A circuit whose records stand where they stood. -/
theorem SameTraffic.exchanges {x y : Circuit} (same : SameTraffic x y) (desc : x.desc.Fits → y.desc.Fits)
    (counters : x.sender.AtMostTop → y.sender.AtMostTop) (g : List Rec) : Circuit.Exchanges g x g y := by
  refine .of_ages desc counters ?_ same.idle
  rw [Circuit.records, same.queue, same.carried, same.chain, Circuit.records]

/-- A sender that keeps its state and its records. -/
theorem modSender_sustains {s : State} {c : CircuitNo} {f : Sender → Sender}
    (state : (f s.circuits[c].sender).state = s.circuits[c].sender.state)
    (carried : (f s.circuits[c].sender).carried = s.circuits[c].sender.carried)
    (chain : (f s.circuits[c].sender).chain = s.circuits[c].sender.chain)
    (counters : s.circuits[c].sender.AtMostTop → (f s.circuits[c].sender).AtMostTop) : Sustains s (modSender s c f) := by
  have same : SameTraffic s.circuits[c] { s.circuits[c] with sender := f s.circuits[c].sender } :=
    ⟨rfl, carried, chain, fun idle a b => carried.trans (idle (state ▸ a) (state ▸ b))⟩
  exact fun g => modCircuit_upkeep (same.exchanges id counters g)

/-- Every circuit changes, and none in the ages of its records. -/
theorem mapCircuits_sustains {s : State} {f : Circuit → Circuit} (desc : ∀ x : Circuit, x.desc.Fits → (f x).desc.Fits)
    (counters : ∀ x : Circuit, x.sender.AtMostTop → (f x).sender.AtMostTop)
    (ages : ∀ x : Circuit, Aged x.records → Aged (f x).records)
    (number : ∀ x : Circuit, (f x).records.length = x.records.length) (idle : ∀ x : Circuit, x.Idle → (f x).Idle) :
    Sustains s { s with circuits := mapAll s.circuits f } :=
  fun g => { Upkeep.refl g s with
    descs := all_mapAll (P := fun x : Circuit => x.desc.Fits) (Q := fun x : Circuit => x.desc.Fits) desc
    counters := all_mapAll (P := fun x : Circuit => x.sender.AtMostTop) (Q := fun x : Circuit => x.sender.AtMostTop) counters
    ages := fun a => ⟨all_mapAll (P := fun x : Circuit => Aged x.records) (Q := fun x : Circuit => Aged x.records) ages a.1, a.2⟩
    pool := fun b => ⟨by
      have same : standing (mapAll s.circuits f) = standing s.circuits :=
        Finset.sum_congr rfl fun c _ => (congrArg (fun x : Circuit => x.records.length) (mapAll_get s.circuits f c)).trans
          (number _)
      show s.freeCount + standing (mapAll s.circuits f) + g.length = 192
      rw [same]
      exact b.total, all_mapAll idle b.idle⟩ }

end Sys2Proof.Machine
/-! ## The ranges and the pool: senders, reports and records made (O50, O52)

What each operation of a sender, of the latch, of the report buffer and of a making keeps. -/

namespace Sys2Proof.Machine

open Sys2Proof

/-! ### Counters (R13, R155, R179) -/

theorem count_le (n : Nat) : count n ≤ 65535 := Nat.min_le_right ..

theorem satInc_le (top n : Nat) : satInc top n ≤ top := Nat.min_le_right ..

/-! ### Senders and their records (R119 to R122, R133 to R137) -/

/-- A circuit after which its sender is free for what it takes up: what it carried is dropped. -/
structure Circuit.Clears (x y : Circuit) : Prop where
  desc : y.desc = x.desc
  counters : x.sender.AtMostTop → y.sender.AtMostTop
  ages : agesOf y.records + agesOf x.sender.carried.records = agesOf x.records
  idle : y.Idle

section Clears

variable {x y : Circuit} (clears : x.Clears y) (g : List Rec)

include clears

theorem Circuit.Clears.confined : Circuit.Confined g x g y := by
  refine ⟨fun h => clears.desc ▸ h, clears.counters, fun a mem => ?_⟩
  rw [← clears.ages]
  simp only [Multiset.mem_add] at mem ⊢
  tauto

/-- A sender that carries no record drops none. -/
theorem Circuit.Clears.exchanges (none : x.Idle → x.sender.carried.records = []) : Circuit.Exchanges g x g y := by
  refine ⟨clears.confined g, fun idle => ?_, fun _ => clears.idle⟩
  have cards := congrArg Multiset.card clears.ages
  simp only [none idle, agesOf_nil, add_zero, card_agesOf] at cards
  rw [cards]

end Clears

theorem Begun.clears {m : State} {c : CircuitNo} {x y : Circuit} {motor : Bool} (begun : Begun m c motor x y) :
    x.Clears y := by
  refine ⟨begun.desc.1, fun top => ?_, ?_, begun.idle⟩
  · obtain ⟨completed, missed, breaksIn⟩ := begun.counters
    exact ⟨completed ▸ top.1, missed ▸ top.2.1, breaksIn ▸ top.2.2⟩
  · have took := begun.took
    rw [Circuit.agesOf_records, Circuit.agesOf_records]
    cases chosen : choose m c with
    | nothing => simp only [TookUp, chosen] at took
    | report =>
      simp only [TookUp, chosen] at took
      obtain ⟨carried, -, queue, chain⟩ := took
      have none : Carried.report.records = [] := rfl
      rw [carried, queue, chain, none, agesOf_nil]
      abel
    | start i =>
      simp only [TookUp, chosen] at took
      obtain ⟨r, queued, carried, queue, chain⟩ := took
      rw [carried, queue, chain, agesOf_withoutAt queued, Carried.records, withoutAt]
      abel
    | resume r =>
      simp only [TookUp, chosen] at took
      obtain ⟨carried, queue, chain⟩ := took
      rw [carried, queue, chain, agesOf_append, Carried.records]
      abel

/-- A sender is emptied; its chain and its counters stay. -/
theorem modSender_clears {s : State} {c : CircuitNo} {f : Sender → Sender}
    (nothing : (f s.circuits[c].sender).carried = .nothing)
    (chain : (f s.circuits[c].sender).chain = s.circuits[c].sender.chain)
    (counters : s.circuits[c].sender.AtMostTop → (f s.circuits[c].sender).AtMostTop) :
    s.circuits[c].Clears (modSender s c f).circuits[c] := by
  rw [modSender_circuit]
  refine ⟨rfl, counters, ?_, idle_of_nothing nothing⟩
  simp only [Circuit.agesOf_records, nothing, chain, Carried.records, agesOf_nil]
  abel

theorem modSender_emptied_sustains {s : State} {c : CircuitNo} {f : Sender → Sender}
    (none : s.circuits[c].Idle → s.circuits[c].sender.carried.records = [])
    (nothing : (f s.circuits[c].sender).carried = .nothing)
    (chain : (f s.circuits[c].sender).chain = s.circuits[c].sender.chain)
    (counters : s.circuits[c].sender.AtMostTop → (f s.circuits[c].sender).AtMostTop) : Sustains s (modSender s c f) :=
  fun g => (modSender_only s c f).upkeep ((modSender_clears nothing chain counters).exchanges g none)

/-- The record that a sender carried is in hand. -/
theorem modSender_bared_upkeep {s : State} {c : CircuitNo} {f : Sender → Sender} {r : Rec}
    (carried : s.circuits[c].sender.carried = .record r) (nothing : (f s.circuits[c].sender).carried = .nothing)
    (chain : (f s.circuits[c].sender).chain = s.circuits[c].sender.chain)
    (counters : s.circuits[c].sender.AtMostTop → (f s.circuits[c].sender).AtMostTop) (g : List Rec) :
    Upkeep g s (r :: g) (modSender s c f) := by
  have clears := modSender_clears nothing chain counters
  refine (modSender_only s c f).upkeep (.of_ages (fun h => clears.desc ▸ h) clears.counters ?_ fun _ => clears.idle)
  rw [← clears.ages, carried, agesOf_cons r g, Carried.records]
  abel

theorem enterPausing_clears (s : State) (c : CircuitNo) : s.circuits[c].Clears (enterPausing s c).circuits[c] := by
  unfold enterPausing
  dsimp only
  split
  · exact modSender_clears rfl rfl id
  · exact modSender_clears rfl rfl id

theorem enterPausing_sustains {s : State} {c : CircuitNo}
    (none : s.circuits[c].Idle → s.circuits[c].sender.carried.records = []) : Sustains s (enterPausing s c) :=
  fun g => (enterPausing_only s c).upkeep ((enterPausing_clears s c).exchanges g none)

/-- R122, R135, R136: a selection clears the sender, or leaves it PAUSING. -/
theorem select_clears (s : State) (c : CircuitNo) : select s c = s ∨ s.circuits[c].Clears (select s c).circuits[c] := by
  cases work : hasWork s c with
  | true => exact .inr (select_begun work).clears
  | false =>
    have chosen : choose s c = .nothing := by simpa [hasWork] using work
    by_cases pausing : s.circuits[c].sender.state = .pausing
    · exact .inl (select_pausing pausing work)
    · right
      simp only [select, chosen, if_neg pausing]
      exact enterPausing_clears s c

theorem select_confines (g : List Rec) (s : State) (c : CircuitNo) : Confines g s g (select s c) := by
  obtain same | clears := select_clears s c
  · rw [same]
    exact (Upkeep.refl g s).toConfines
  · exact (select_only s c).confines (clears.confined g)

/-- A selection of a sender that carries no record. -/
theorem select_sustains {s : State} {c : CircuitNo}
    (none : s.circuits[c].Idle → s.circuits[c].sender.carried.records = []) : Sustains s (select s c) := by
  obtain same | clears := select_clears s c
  · rw [same]
    exact .refl s
  · exact fun g => (select_only s c).upkeep (clears.exchanges g none)

theorem Offered.exchanges {m : State} {c : CircuitNo} {x y : Circuit} (offered : Offered m c x y) (g : List Rec) :
    Circuit.Exchanges g x g y := by
  have same : Circuit.Exchanges g x g x := (SameTraffic.refl x).exchanges id id g
  cases state : x.sender.state with
  | stopped =>
    simp only [Offered, state] at offered
    split at offered
    · unfold Started at offered
      split at offered
      · exact offered.clears.exchanges g (idle_pausing (.inl state))
      · rw [offered]
        exact SameTraffic.exchanges (x := x) (y := { x with sender := { x.sender with
            state := .starting, motor := true, belief := .unknown, motorTimer := some x.desc.motorDelay } })
          ⟨rfl, rfl, rfl, fun idle _ _ => idle (by rw [state]; decide) (by rw [state]; decide)⟩ id id g
    · rw [offered]
      exact same
  | pausing =>
    simp only [Offered, state] at offered
    split at offered
    · exact offered.clears.exchanges g (idle_pausing (.inr (.inr state)))
    · rw [offered]
      exact same
  | starting => simp only [Offered, state] at offered; rw [offered]; exact same
  | carrying => simp only [Offered, state] at offered; rw [offered]; exact same
  | closing => simp only [Offered, state] at offered; rw [offered]; exact same

theorem offer_sustains (s : State) (c : CircuitNo) : Sustains s (offer s c) :=
  fun g => (offer_only s c).upkeep ((offer_offered s c).exchanges g)

theorem workTest_sustains (s : State) (c : CircuitNo) : Sustains s (workTest s c) := by
  by_cases stopped : s.circuits[c].sender.state = .stopped
  · have same : offer s c = workTest s c := by simp only [offer, stopped]
    exact same ▸ offer_sustains s c
  · have same : workTest s c = s := if_neg fun h => stopped h.1
    exact same.symm ▸ .refl s

theorem takeNext_sustains (s : State) (c : CircuitNo) : Sustains s (takeNext s c) := by
  obtain ⟨y, taken, circuit⟩ := takeNext_circuit s c
  have carried : y.carried = s.circuits[c].sender.carried := (congrArg Sender.carried taken :)
  have state : y.state = s.circuits[c].sender.state := (congrArg Sender.state taken :)
  have counters : y.completed = s.circuits[c].sender.completed ∧ y.missed = s.circuits[c].sender.missed ∧
      y.breaksIn = s.circuits[c].sender.breaksIn :=
    ⟨(congrArg Sender.completed taken :), (congrArg Sender.missed taken :), (congrArg Sender.breaksIn taken :)⟩
  refine fun g => (takeNext_only s c).upkeep ?_
  rw [circuit]
  have same : SameTraffic s.circuits[c] { s.circuits[c] with sender := y } := by
    refine ⟨rfl, carried, (congrArg Sender.chain taken :), fun idle a b => ?_⟩
    exact carried.trans (idle (state ▸ a) (state ▸ b))
  exact same.exchanges id (fun top => ⟨counters.1 ▸ top.1, counters.2.1 ▸ top.2.1, counters.2.2 ▸ top.2.2⟩) g

theorem motorReady_sustains (c : CircuitNo) (s : State) : Sustains s (motorReady c s) := by
  unfold motorReady
  split
  · next starting =>
    have timed : Sustains s (modSender s c fun x => { x with motorTimer := none }) := modSender_sustains rfl rfl rfl id
    refine timed.trans (select_sustains (idle_pausing (.inr (.inl ?_))))
    rw [modSender_circuit]
    exact starting
  · exact .refl s

theorem tellJoined_sustains (s : State) (c : CircuitNo) (x : Class) : Sustains s (tellJoined s c x) := by
  unfold tellJoined
  split
  · unfold breakIfPending
    split
    · split
      · exact modSender_sustains rfl rfl rfl id
      · exact .refl s
    · exact .refl s
  · exact offer_sustains s c

/-- A record that was in hand joins a queue. -/
theorem modQueue_joins_upkeep {s : State} {c : CircuitNo} {f : List Rec → List Rec} {r r' : Rec} (age : r'.age = r.age)
    (joins : (f s.circuits[c].queue).Perm (r' :: s.circuits[c].queue)) (g : List Rec) :
    Upkeep (r :: g) s g (modQueue s c f) := by
  refine modCircuit_upkeep (.of_ages id id ?_ id)
  rw [Circuit.agesOf_records, Circuit.agesOf_records]
  dsimp only
  rw [agesOf_perm joins, agesOf_cons r', agesOf_cons r, agesOf_congr age]
  abel

theorem joinQueue_upkeep (s : State) (c : CircuitNo) (r : Rec) (g : List Rec) : Upkeep (r :: g) s g (joinQueue s c r) :=
  (modQueue_joins_upkeep rfl (List.perm_append_singleton _ _) g).trans (tellJoined_sustains _ c _ g)

/-- A queued record leaves its queue. -/
theorem modQueue_leaves_upkeep {s : State} {c : CircuitNo} {i : Nat} {r : Rec} (queued : s.circuits[c].queue[i]? = some r)
    (g : List Rec) : Upkeep g s (r :: g) (modQueue s c fun q => withoutAt q i) := by
  refine modCircuit_upkeep (.of_ages id id ?_ id)
  rw [Circuit.agesOf_records, Circuit.agesOf_records, agesOf_withoutAt queued, agesOf_cons r]
  abel

theorem tellWithheldMore_sustains (s : State) (c : CircuitNo) : Sustains s (tellWithheldMore s c) := by
  unfold tellWithheldMore
  split
  · next starting =>
    split
    · exact .refl s
    · exact modSender_emptied_sustains (idle_pausing (.inr (.inl starting))) rfl rfl id
  · split
    · exact .refl s
    · have same : SameTraffic s.circuits[c]
          { s.circuits[c] with sender := { s.circuits[c].sender with state := .closing, breakPending := false } } :=
        ⟨rfl, rfl, rfl, fun _ _ b => absurd rfl b⟩
      exact fun g => modCircuit_upkeep (same.exchanges id id g)
  · exact .refl s

theorem tellDegree_sustains (m : Mode) (s : State) (c : CircuitNo) : Sustains s (tellDegree m s c) := by
  unfold tellDegree
  dsimp only
  split
  · exact tellWithheldMore_sustains s c
  · split
    · exact offer_sustains s c
    · exact .refl s

/-! ### Reports and the latch (R172, R173, R179, R181 to R184) -/

/-- R172: with room in the buffer a report is placed. -/
theorem pushReport_sustains {s : State} (room : reportRoom s = true) (t : Text) : Sustains s (pushReport s t) := by
  have room : s.mgmt.reports.length < 8 := of_decide_eq_true room
  refine (modMgmt_sustains fun h => ⟨h.1, h.2.1, ?_⟩).trans (offer_sustains _ _)
  rw [List.length_append, List.length_singleton]
  exact room

/-- R184: a kind is owed only while it is latched and unmasked and the alert mode is ON. -/
theorem alertDue_sustains {s : State} {k : EventKind}
    (due : (entryOf s k).latched = true ∧ (entryOf s k).masked = false ∧ s.latch.alertMode = true) :
    Sustains s (alertDue s k) := by
  unfold alertDue
  split
  · next room => exact pushReport_sustains room _
  · refine modEntry_sustains id fun h => ⟨fun clear => ?_, h.latched, fun _ => due⟩
    exact absurd due.1 (Bool.eq_false_iff.mp clear)

/-- R181. -/
theorem raise_sustains (s : State) (k : EventKind) (d : Detail) : Sustains s (raise s k d) := by
  unfold raise
  dsimp only
  split
  · next latched =>
    refine modEntry_sustains (fun _ => satInc_le 255 _) fun h => ⟨fun clear => ?_, fun on => ⟨(h.latched on).1, ?_⟩, h.owed⟩
    · exact absurd latched (Bool.eq_false_iff.mp clear)
    · exact Nat.le_min.mpr ⟨Nat.le_add_left .., by decide⟩
  · next clear =>
    have latches : Sustains s (modEntry s k fun e => { e with latched := true, detail := some d, count := 1 }) := by
      refine modEntry_sustains (fun _ => show 1 ≤ 255 by decide) fun h => ⟨nofun, fun _ => ⟨nofun, le_refl 1⟩, fun owed => ?_⟩
      have none := (h.clear (Bool.eq_false_iff.mpr clear)).2.2
      exact nomatch none.symm.trans owed
    split
    · next alert =>
      rw [Bool.and_eq_true, Bool.not_eq_true'] at alert
      refine latches.trans (alertDue_sustains ?_)
      rw [entryOf_modEntry_same]
      exact ⟨rfl, alert.2, alert.1⟩
    · exact latches

theorem placeReply_sustains (s : State) (t : Text) : Sustains s (placeReply s t) := by
  unfold placeReply
  split
  · next room => exact pushReport_sustains room t
  · exact raise_sustains s _ _

/-- A kind is owed no more. -/
theorem modOwed_sustains (s : State) (k : EventKind) : Sustains s (modEntry s k fun e => { e with owed := false }) :=
  modEntry_sustains id fun h => ⟨fun clear => ⟨(h.clear clear).1, (h.clear clear).2.1, rfl⟩, h.latched, nofun⟩

theorem payOwed_sustains (s : State) (k : EventKind) : Sustains s (payOwed s k) := by
  unfold payOwed
  split
  · next due =>
    rw [Bool.and_eq_true] at due
    exact (modOwed_sustains s k).trans (pushReport_sustains (s := modEntry s k fun e => { e with owed := false }) due.2 _)
  · exact .refl s

theorem reportLeaves_sustains (s : State) : Sustains s (reportLeaves s) := by
  refine (modMgmt_sustains fun h => ⟨h.1, h.2.1, ?_⟩).trans (foldl_sustains payOwed payOwed_sustains allKinds _)
  rw [List.length_tail]
  exact (Nat.sub_le ..).trans h.2.2

/-! ### A record returned (R124) -/

/-- What deliveries change in a slot leaves the substitute counts as they are. -/
theorem Slot.AtMostTop.of_core {x y : Slot} (same : slotCore y = slotCore x) (top : x.AtMostTop) : y.AtMostTop := by
  intro t k take
  obtain ⟨z, take'⟩ := slotCore_take same.symm t take
  exact (top t _ take' :)

theorem modSlot_core_sustains {s : State} {n : SlotNo} {f : Slot → Slot} (core : ∀ x, slotCore (f x) = slotCore x) :
    Sustains s (modSlot s n f) := modSlot_sustains (Slot.AtMostTop.of_core (core _))

theorem unnameIn_sustains (s : State) (ref : Option RecRef) : Sustains s (unnameIn s ref) := by
  unfold unnameIn
  split
  · exact .refl s
  · exact modSlot_core_sustains fun x => slotCore_unname x _

theorem returnRecord_upkeep (s : State) (r : Rec) (g : List Rec) : Upkeep (r :: g) s g (returnRecord s r) := by
  refine Upkeep.trans (freeCount_upkeep (fun aged a mem => aged a ?_) ?_) (unnameIn_sustains _ r.ref g)
  · rw [agesOf_cons]
    exact Multiset.mem_add.mpr (.inr mem)
  · rw [List.length_cons]
    omega

theorem returnRecords_upkeep (rs : List Rec) (s : State) (g : List Rec) : Upkeep (rs ++ g) s g (returnRecords s rs) := by
  induction rs generalizing s with
  | nil => exact .refl g s
  | cons r rs ih => exact (returnRecord_upkeep s r (rs ++ g)).trans (ih (returnRecord s r))

/-! ### A character sent (R123, R137, R143 to R152) -/

theorem startCut_sustains (s : State) (c : CircuitNo) : Sustains s (startCut s c) :=
  Sustains.trans (modSender_sustains rfl rfl rfl id) (takeNext_sustains _ c)

/-- R124, R143, R150: the record carried is returned to the pool, and the sender selects. -/
theorem finish_sustains {s : State} {c : CircuitNo} {r : Rec} {f : Sender → Sender}
    (carried : s.circuits[c].sender.carried = .record r) (nothing : (f s.circuits[c].sender).carried = .nothing)
    (chain : (f s.circuits[c].sender).chain = s.circuits[c].sender.chain)
    (counters : s.circuits[c].sender.AtMostTop → (f s.circuits[c].sender).AtMostTop) :
    Sustains s (select (returnRecord (modSender s c f) r) c) := by
  refine fun g => ((modSender_bared_upkeep carried nothing chain counters g).trans (returnRecord_upkeep _ r g)).trans
    (select_sustains (fun _ => ?_) g)
  rw [returnRecord_circuits, modSender_circuit]
  simp only [nothing]
  rfl

theorem finishCut_sustains {s : State} {c : CircuitNo} {r : Rec} (carried : s.circuits[c].sender.carried = .record r) :
    Sustains s (finishCut s c r) := by
  unfold finishCut
  exact finish_sustains carried rfl rfl id

theorem finishDelivery_sustains {s : State} {c : CircuitNo} {r : Rec}
    (carried : s.circuits[c].sender.carried = .record r) : Sustains s (finishDelivery s c r) := by
  unfold finishDelivery
  exact finish_sustains carried rfl rfl fun top => ⟨count_le _, top.2⟩

theorem makeBreak_sustains {s : State} {c : CircuitNo} {r b : Rec} {i : Nat}
    (carried : s.circuits[c].sender.carried = .record r) (queued : s.circuits[c].queue[i]? = some b) :
    Sustains s (makeBreak s c r i b) := by
  have kept : (suspended s.circuits[c].sender r).age = r.age := rfl
  unfold makeBreak
  dsimp only
  let a := modQueue (modSender s c fun x =>
    { x with chain := x.chain ++ [suspended x r], breaksIn := count x.breaksIn }) c fun q => withoutAt q i
  have only : OnlyCircuit c s (carryRecord a c b true) :=
    ((modSender_only s c _).trans (modQueue_only _ c _)).trans (carryRecord_only a c b true)
  have before : a.circuits[c] = { s.circuits[c] with
      queue := withoutAt s.circuits[c].queue i
      sender := { s.circuits[c].sender with
        chain := s.circuits[c].sender.chain ++ [suspended s.circuits[c].sender r]
        breaksIn := count s.circuits[c].sender.breaksIn } } := by
    rw [modQueue_circuit, modSender_circuit]
  obtain ⟨y, begins, circuit⟩ := carryRecord_circuit a c b true
  rw [before] at begins circuit
  refine fun g => only.upkeep ?_
  rw [circuit]
  refine .of_ages id (fun top => ?_) ?_ fun _ => idle_of_carrying begins.state
  · obtain ⟨completed, missed, breaksIn⟩ := begins.counters
    exact ⟨completed ▸ top.1, missed ▸ top.2.1, breaksIn ▸ count_le _⟩
  · simp only [Circuit.agesOf_records, begins.carried, begins.chain, carried, Carried.records, agesOf_append,
      agesOf_congr kept, agesOf_withoutAt queued]
    abel

theorem takeBreak_sustains {s : State} {c : CircuitNo} {r : Rec} (carried : s.circuits[c].sender.carried = .record r) :
    Sustains s (takeBreak s c r) := by
  unfold takeBreak
  split
  · exact takeNext_sustains s c
  · split
    · exact takeNext_sustains s c
    · split
      · next queued => exact makeBreak_sustains carried queued
      · exact takeNext_sustains s c

theorem handBackCurrent_upkeep (s : State) (c : CircuitNo) (r : Rec) (f : RecRef) (g : List Rec) :
    Upkeep (r :: g) s g (handBackCurrent s c r f) := by
  unfold handBackCurrent
  split
  · exact returnRecord_upkeep s r g
  · exact modQueue_joins_upkeep (r := r) (r' := { r with composed := none }) (f := List.cons _) rfl (.refl _) g

/-- The record in hand is changed, but not in its age. -/
theorem Upkeep.renamed {g : List Rec} {r r' : Rec} {s u : State} (h : Upkeep (r' :: g) s g u) (age : r'.age = r.age) :
    Upkeep (r :: g) s g u where
  toConfines := { h.toConfines with
    ages := fun a => h.ages ⟨a.1, by
      have aged := a.2
      rw [Aged, agesOf_cons] at aged ⊢
      rw [agesOf_congr age]
      exact aged⟩ }
  pool := fun b => h.pool ⟨b.total, b.idle⟩

theorem handBack_upkeep (s : State) (c : CircuitNo) (r : Rec) (g : List Rec) : Upkeep (r :: g) s g (handBack s c r) := by
  unfold handBack
  split
  · exact returnRecord_upkeep s r g
  · next f _ =>
    split
    · exact handBackCurrent_upkeep s c r f g
    · exact Upkeep.trans (modSlot_core_sustains (fun x => slotCore_dropReader x f.take) (r :: g))
        ((handBackCurrent_upkeep _ c (toCurrent r f) _ g).renamed rfl)

theorem closeEnds_sustains {s : State} {c : CircuitNo} {r : Rec} (carried : s.circuits[c].sender.carried = .record r)
    (last : Phase) : Sustains s (closeEnds s c r last) := by
  let r' : Rec := { r with resume := closedOffset s.circuits[c].sender last r }
  have handed : Sustains s (handBack (modSender s c Sender.bare) c r') := fun g =>
    (modSender_bared_upkeep carried rfl rfl id g).trans ((handBack_upkeep _ c r' g).renamed rfl)
  have none : (handBack (modSender s c Sender.bare) c r').circuits[c].sender.carried.records = [] := by
    rw [handBack_sender, modSender_circuit]
    rfl
  unfold closeEnds
  dsimp only
  split
  · exact handed.trans (select_sustains fun _ => none)
  · exact handed.trans (enterPausing_sustains fun _ => none)

theorem goOn_sustains {s : State} {c : CircuitNo} {r : Rec} (carried : s.circuits[c].sender.carried = .record r)
    (last : Phase) : Sustains s (goOn s c r last) := by
  unfold goOn
  dsimp only
  split
  · split
    · exact closeEnds_sustains carried last
    · exact takeNext_sustains s c
  · split
    · have cleared : Sustains s (modSender s c fun y => { y with breakPending := false }) :=
        modSender_sustains rfl rfl rfl id
      exact cleared.trans (takeBreak_sustains (by rw [modSender_circuit]; exact carried))
    · exact takeNext_sustains s c

theorem settlePhase_counters (v : Version) {x : Sender} (top : x.AtMostTop) : (settlePhase v x).AtMostTop := by
  have same := settlePhase_unsettled v x
  have completed : (settlePhase v x).completed = x.completed := (congrArg Sender.completed same :)
  have missed : (settlePhase v x).missed = x.missed := (congrArg Sender.missed same :)
  have breaksIn : (settlePhase v x).breaksIn = x.breaksIn := (congrArg Sender.breaksIn same :)
  exact ⟨completed ▸ top.1, missed ▸ top.2.1, breaksIn ▸ top.2.2⟩

theorem recordSent_sustains {s : State} {c : CircuitNo} {r : Rec} (carried : s.circuits[c].sender.carried = .record r)
    (last : Phase) : Sustains s (recordSent s c r last) := by
  have settled (v : Version) : Sustains s (modSender s c fun _ => settlePhase v s.circuits[c].sender) :=
    modSender_sustains (f := fun _ => settlePhase v s.circuits[c].sender) (settlePhase_state v _) (settlePhase_carried v _)
      (settlePhase_chain v _) (settlePhase_counters v)
  have still (v : Version) :
      (modSender s c fun _ => settlePhase v s.circuits[c].sender).circuits[c].sender.carried = .record r := by
    rw [modSender_circuit]
    exact (settlePhase_carried v _).trans carried
  unfold recordSent
  dsimp only
  split
  · split
    · exact finishCut_sustains carried
    · exact takeNext_sustains s c
  · split
    · exact startCut_sustains s c
    · split
      · exact (settled (readVersion s r)).trans (finishDelivery_sustains (still (readVersion s r)))
      · exact (settled (readVersion s r)).trans (goOn_sustains (still (readVersion s r)) last)

/-- A report has been sent: its sender is bare while the next reports are offered, and then selects. -/
theorem reportFinished_sustains {s : State} {c : CircuitNo} (carried : s.circuits[c].sender.carried = .report) :
    Sustains s (select (reportLeaves (modSender s c Sender.bare)) c) := by
  have left : Sustains s (reportLeaves (modSender s c Sender.bare)) :=
    (modSender_emptied_sustains (fun _ => by rw [carried]; rfl) rfl rfl id).trans (reportLeaves_sustains _)
  by_cases busy : s.circuits[c].sender.Busy
  · have still : (modSender s c Sender.bare).circuits[c].sender.Busy := by rw [modSender_circuit]; exact busy
    refine left.trans (select_sustains fun _ => ?_)
    rw [reportLeaves_busy still, modSender_circuit]
    rfl
  · refine fun g => ⟨(left g).toConfines.trans (select_confines g _ c), fun b => ?_⟩
    have nothing := b.idle c (fun e => busy (.inl e)) fun e => busy (.inr e)
    exact nomatch carried.symm.trans nothing

theorem reportSent_sustains {s : State} {c : CircuitNo} (carried : s.circuits[c].sender.carried = .report) :
    Sustains s (reportSent s c) := by
  unfold reportSent
  dsimp only
  split
  · split
    · refine (modSender_emptied_sustains (fun _ => by rw [carried]; rfl) rfl rfl id).trans (select_sustains fun _ => ?_)
      rw [modSender_circuit]
      rfl
    · exact takeNext_sustains s c
  · split
    · exact startCut_sustains s c
    · split
      · exact reportFinished_sustains carried
      · exact takeNext_sustains s c

theorem charSent_sustains (s : State) (c : CircuitNo) : Sustains s (charSent s c) := by
  unfold charSent
  dsimp only
  split
  · exact .refl s
  · next g _ =>
    have sent : Sustains s (modSender s c (afterSent g)) := modSender_sustains rfl rfl rfl id
    split
    · exact sent
    · next carried => exact sent.trans (reportSent_sustains carried)
    · next carried => exact sent.trans (recordSent_sustains carried _)

theorem sendEmpty_sustains (fuel : Nat) (s : State) : Sustains s (sendEmpty fuel s) := by
  induction fuel generalizing s with
  | zero => exact .refl s
  | succ fuel ih =>
    unfold sendEmpty
    split
    · exact .refl s
    · exact (charSent_sustains s _).trans (ih _)

theorem atOnce_sustains (s : State) : Sustains s (atOnce s) := sendEmpty_sustains _ s

/-! ### Records made (R113 to R117) -/

theorem addPending_sustains (s : State) (n : SlotNo) : Sustains s (addPending s n) := modSlot_core_sustains fun _ => rfl

theorem countMissed_sustains (s : State) (c : CircuitNo) : Sustains s (countMissed s c) :=
  modSender_sustains rfl rfl rfl fun top => ⟨top.1, count_le _, top.2.2⟩

theorem raiseMissed_sustains (s : State) (c : CircuitNo) (k : Option Key) : Sustains s (raiseMissed s c k) := by
  unfold raiseMissed
  split
  · exact raise_sustains s _ _
  · exact .refl s

theorem miss_sustains (s : State) (c : CircuitNo) : Sustains s (miss s c) :=
  (countMissed_sustains s c).trans (raise_sustains _ _ _)

/-- A fresh record is taken from the pool. -/
theorem takeFree_upkeep {s : State} (free : 0 < s.freeCount) {r : Rec} (fresh : r.age = 0) (g : List Rec) :
    Upkeep g s (r :: g) { s with freeCount := s.freeCount - 1 } := by
  refine freeCount_upkeep (fun aged a mem => ?_) ?_
  · rw [agesOf_cons, Multiset.mem_add] at mem
    obtain mem | mem := mem
    · have zero : a = 0 := by simpa [agesOf, fresh] using mem
      omega
    · exact aged a mem
  · rw [List.length_cons]
    omega

section Making

variable {r : Rec} (fresh : r.age = 0)

include fresh

theorem makeFree_sustains {s : State} (free : 0 < s.freeCount) (c : CircuitNo) (n : SlotNo) :
    Sustains s (makeFree s c n r) :=
  fun g => ((takeFree_upkeep free fresh g).trans (addPending_sustains _ n (r :: g))).trans (joinQueue_upkeep _ c r g)

theorem displaceAt_sustains {s : State} {c : CircuitNo} {i : Nat} {old : Rec} (queued : s.circuits[c].queue[i]? = some old)
    (n : SlotNo) : Sustains s (displaceAt s c i old n r) := by
  have exchanged (g : List Rec) (w : State) : Upkeep (old :: g) w (r :: g) w :=
    { Upkeep.refl g w with
      ages := fun a => ⟨a.1, fun x mem => by
        rw [agesOf_cons, Multiset.mem_add] at mem
        obtain mem | mem := mem
        · have zero : x = 0 := by simpa [agesOf, fresh] using mem
          omega
        · exact a.2 x (by rw [agesOf_cons]; exact Multiset.mem_add.mpr (.inr mem))⟩
      pool := fun b => ⟨b.total, b.idle⟩ }
  intro g
  have left := (modQueue_leaves_upkeep queued g).trans (unnameIn_sustains _ old.ref (old :: g))
  have missed := left.trans
    ((countMissed_sustains _ c (old :: g)).trans (raiseMissed_sustains _ c (keyOfRecord s old) (old :: g)))
  exact ((missed.trans (exchanged g _)).trans (addPending_sustains _ n (r :: g))).trans (joinQueue_upkeep _ c r g)

theorem turnFor_sustains (n : SlotNo) (s : State) (c : CircuitNo) : Sustains s (turnFor n r s c) := by
  unfold turnFor
  split
  · next free => exact makeFree_sustains fresh free c n
  · split
    · split
      · exact miss_sustains s c
      · split
        · next queued => exact displaceAt_sustains fresh queued n
        · exact miss_sustains s c
    · exact miss_sustains s c

omit fresh in
theorem takenBeforeTurn_sustains (s : State) (i : Instr) : Sustains s (takenBeforeTurn s i) := by
  unfold takenBeforeTurn
  split
  · split
    · exact charSent_sustains s _
    · exact .refl s
  · split
    · exact motorReady_sustains _ s
    · exact .refl s
  · exact .refl s

omit fresh in
theorem inGap_sustains {f : State → Instr → State} (h : ∀ s i, Sustains s (f s i)) (s : State) :
    Sustains s (inGap f s) := by
  have popped : Sustains s { s with meanwhile := s.meanwhile.tail } :=
    SameParts.sustains {}
  exact popped.trans (foldl_sustains f h _ _)

theorem makeRecords_sustains (n : SlotNo) (s : State) (cs : List CircuitNo) : Sustains s (makeRecords s cs n r) :=
  foldl_sustains _ (fun s c => (inGap_sustains takenBeforeTurn_sustains s).trans (turnFor_sustains fresh n _ c)) cs s

end Making

theorem makeFor_sustains (s : State) (n : SlotNo) (t : TakeNo) (k : RecKind) (gap : List TakeNo) (but : List CircuitNo) :
    Sustains s (makeFor s n t k gap but) := by
  unfold makeFor
  split
  · exact .refl s
  · exact makeRecords_sustains (r := freshRecord n t _ k gap) rfl n s _

end Sys2Proof.Machine
/-! ## The ranges and the pool: takes, the store and the lines (O50, O52)

What each operation of a take, of a slot, of a message and of a framer keeps. -/

namespace Sys2Proof.Machine

open Sys2Proof

/-! ### Takes and slots (R60) -/

/-- The takes of a slot are those of another, with one put. -/
theorem Slot.AtMostTop.put {x y : Slot} {t : TakeNo} {k : Take} (top : x.AtMostTop)
    (takes : y.takes = Sys2Proof.put x.takes t (some k)) (new : k.subCount ≤ 15) : y.AtMostTop := by
  intro j z take
  rw [takes] at take
  by_cases e : j = t
  · subst e
    rw [put_same] at take
    exact Option.some.inj take ▸ new
  · rw [put_other _ _ e] at take
    exact top j z take

theorem Slot.AtMostTop.of_none {x : Slot} (takes : x.takes = Slot.freed.takes) : x.AtMostTop := by
  intro t k take
  rw [takes] at take
  simp [Slot.freed] at take

/-- Numbers of substitutes stay within their top. -/
theorem modTake_sustains {s : State} {n : SlotNo} {t : TakeNo} {f : Take → Take}
    (top : ∀ k, takeAt s n t = some k → k.subCount ≤ 15 → (f k).subCount ≤ 15) : Sustains s (modTake s n t f) := by
  refine modSlot_sustains fun old j k take => ?_
  rw [modAt_get] at take
  split at take
  · next e =>
    subst e
    obtain ⟨x, here, rfl⟩ := Option.map_eq_some_iff.mp take
    exact top x here (old j x here)
  · exact old j k take

/-- The slots are set afresh. -/
theorem slots_sustains {s : State} {v : Vector Slot 40} {o : List SlotNo}
    (top : (∀ n : SlotNo, s.slots[n].AtMostTop) → ∀ n : SlotNo, v[n].AtMostTop) :
    Sustains s { s with slots := v, recency := o } :=
  fun g => { Upkeep.refl g s with takes := top }

theorem slotToFront_sustains (s : State) (n : SlotNo) : Sustains s (slotToFront s n) := SameParts.sustains {}

theorem slotToTail_sustains (s : State) (n : SlotNo) : Sustains s (slotToTail s n) := SameParts.sustains {}

/-! ### The order gate (R72 to R75) -/

theorem releaseTake_sustains (s : State) (n : SlotNo) (t : TakeNo) (k : RecKind) (gap : List TakeNo) :
    Sustains s (releaseTake s n t k gap) := by
  have released : Sustains s (modTake s n t fun x => { x with state := .released, waitTimer := none, releasedFlag := true }) :=
    modTake_sustains fun _ _ => id
  exact released.trans (makeFor_sustains _ n t k gap [])

theorem searchGate_sustains (fuel : Nat) (s : State) (n : SlotNo) : Sustains s (searchGate fuel s n) := by
  induction fuel generalizing s with
  | zero => exact .refl s
  | succ fuel ih =>
    unfold searchGate
    split
    · exact .refl s
    · exact (releaseTake_sustains s n _ .new []).trans (ih _)

theorem gateSearch_sustains (s : State) (n : SlotNo) : Sustains s (gateSearch s n) := searchGate_sustains 12 s n

theorem expireWait_sustains (s : State) (n : SlotNo) (m : TakeNo) : Sustains s (expireWait s n m) := by
  have passed : Sustains s (modSlot s n fun x => { x with passed := unionOf x.passed (setOf (passedBy s.slots[n] m)) }) :=
    modSlot_sustains id
  have due := foldl_sustains _ (fun u t => releaseTake_sustains u n t .new (gapNotice (passedBy s.slots[n] m) t))
    (waitingUpTo s.slots[n] m)
  have searched := (passed.trans (due _)).trans (gateSearch_sustains _ n)
  unfold expireWait
  dsimp only
  split
  · exact searched.trans (raise_sustains _ _ _)
  · exact searched

theorem releaseLate_sustains (s : State) (n : SlotNo) (t : TakeNo) : Sustains s (releaseLate s n t) := by
  have passed : Sustains s (modSlot s n fun x => { x with passed := put x.passed t false }) := modSlot_sustains id
  have late : Sustains _ (modTake (modSlot s n fun x => { x with passed := put x.passed t false }) n t
      fun k => { k with late := true }) := modTake_sustains fun _ _ => id
  rw [releaseLate_eq]
  exact (passed.trans late).trans (releaseTake_sustains _ n t .late [])

theorem gate_sustains (s : State) (n : SlotNo) (t : TakeNo) : Sustains s (gate s n t) := by
  unfold gate
  dsimp only
  split
  · exact (releaseLate_sustains s n t).trans (gateSearch_sustains _ n)
  · split
    · exact (releaseTake_sustains s n t .new []).trans (gateSearch_sustains _ n)
    · have waits : Sustains s (modTake s n t fun k => { k with state := .waiting, waitTimer := some s.takeWait }) :=
        modTake_sustains fun _ _ => id
      split
      · exact waits.trans (expireWait_sustains _ n t)
      · exact waits

/-! ### Characters written, and takes cut (R69 to R71) -/

theorem withFilling_subCount (k : Take) (v : Version) : (withFilling k v).subCount = k.subCount := by
  unfold withFilling
  split <;> rfl

/-- The take is written with another version of its text. -/
theorem withFilling_sustains {s : State} {n : SlotNo} {t : TakeNo} {k : Take} (take : takeAt s n t = some k) {f : Take → Take}
    (count : (f k).subCount = k.subCount) : Sustains s (modTake s n t f) :=
  modTake_sustains fun x here top => by
    obtain rfl := Option.some.inj (here.symm.trans take)
    exact count.trans_le top

theorem raiseTakeCut_sustains (s : State) (n : SlotNo) (t : TakeNo) : Sustains s (raiseTakeCut s n t) := by
  unfold raiseTakeCut
  split
  · exact raise_sustains s _ _
  · exact .refl s

theorem writeChar_sustains (s : State) (n : SlotNo) (t : TakeNo) (h : House) : Sustains s (writeChar s n t h) := by
  unfold writeChar
  split
  · exact .refl s
  · next k take =>
    split
    · dsimp only
      split
      · split
        · exact modSlot_sustains fun top => top.put rfl ((withFilling_subCount k _).trans_le (top t k take))
        · exact (withFilling_sustains take (withFilling_subCount k _)).trans (raiseTakeCut_sustains _ n t)
      · exact withFilling_sustains take (withFilling_subCount k _)
    · exact .refl s

theorem endCut_sustains (s : State) (n : SlotNo) (t : TakeNo) : Sustains s (endCut s n t) := by
  unfold endCut
  split
  · exact .refl s
  · next k take =>
    dsimp only
    split
    · exact .refl s
    · exact (withFilling_sustains take (withFilling_subCount k _)).trans (raiseTakeCut_sustains _ n t)

/-! ### Records pulled, and substitutes stored (R63, R78 to R81) -/

theorem detachCarried_sustains (p : Rec → Bool) (line : CutLine) (s : State) (c : CircuitNo) :
    Sustains s (detachCarried p line s c) := by
  unfold detachCarried
  split
  · next r carried =>
    split
    · refine Sustains.trans (fun g => modCircuit_upkeep (.of_ages id id ?_ fun idle a b => ?_)) (unnameIn_sustains _ r.ref)
      · simp only [Circuit.agesOf_records, carried, Carried.records]
        rfl
      · exact nomatch carried.symm.trans (idle a b)
    · exact .refl s
  · exact .refl s

theorem pullCircuit_sustains (p : Rec → Bool) (line : CutLine) (s : State) (c : CircuitNo) :
    Sustains s (pullCircuit p line s c) := by
  let q := s.circuits[c].queue
  let ch := s.circuits[c].sender.chain
  have pulled (g : List Rec) : Upkeep g s ((q.filter p ++ ch.filter p) ++ g) (modCircuit s c fun x =>
      { x with queue := q.filter (fun r => !p r), sender := { x.sender with chain := ch.filter fun r => !p r } }) := by
    refine modCircuit_upkeep (.of_ages id id ?_ id)
    simp only [Circuit.agesOf_records, agesOf_append, q, ch, ← agesOf_filter p s.circuits[c].queue,
      ← agesOf_filter p s.circuits[c].sender.chain]
    abel
  exact fun g => ((pulled g).trans (returnRecords_upkeep _ _ g)).trans (detachCarried_sustains p line _ c g)

theorem pullRecords_sustains (p : Rec → Bool) (line : CutLine) (s : State) : Sustains s (pullRecords p line s) :=
  foldl_sustains _ (pullCircuit_sustains p line) _ s

theorem dropSuperseded_sustains (s : State) (n : SlotNo) (t : TakeNo) : Sustains s (dropSuperseded s n t) :=
  (pullRecords_sustains _ _ s).trans (modSlot_core_sustains fun x => slotCore_freeSuperseded x t)

theorem toSuperseded_age (n : SlotNo) (t : TakeNo) (r : Rec) : (toSuperseded n t r).age = r.age := by
  unfold toSuperseded
  split <;> rfl

theorem rewrite_age (n : SlotNo) (t : TakeNo) (r : Rec) : (rewrite n t r).age = r.age := by
  unfold rewrite
  split <;> rfl

theorem Circuit.replaced_ages (n : SlotNo) (t : TakeNo) (x : Circuit) :
    agesOf (x.replaced n t).records = agesOf x.records := by
  have queue : (x.replaced n t).queue = x.queue.map (rewrite n t) := rfl
  have chain : (x.replaced n t).sender.chain = x.sender.chain.map (toSuperseded n t) := rfl
  rw [Circuit.agesOf_records, Circuit.replaced_carried, queue, chain, agesOf_map (rewrite_age n t),
    agesOf_map (toSuperseded_age n t), agesOf_map (toSuperseded_age n t), Circuit.agesOf_records]

/-- R78: a further substitute is counted, up to the top. -/
theorem replaceVersion_top (readers : Nat) (t : TakeNo) {x : Slot} (top : x.AtMostTop) :
    (replaceVersion readers t x).AtMostTop := by
  unfold replaceVersion
  split
  · exact top
  · split
    · exact top
    · exact top.put rfl (satInc_le 15 _)

theorem replaceText_sustains (s : State) (n : SlotNo) (t : TakeNo) : Sustains s (replaceText s n t) := by
  refine (dropSuperseded_sustains s n t).trans ?_
  show Sustains _ (rewriteQueued (modSlot (moveReaders (dropSuperseded s n t) n t) n _) n t)
  rw [rewriteQueued_moveReaders]
  generalize dropSuperseded s n t = a
  have replaced : Sustains a { a with circuits := mapAll a.circuits (Circuit.replaced n t) } := by
    refine mapCircuits_sustains (fun _ => id) (fun _ => id) (fun x aged => ?_) (fun x => ?_) fun _ idle => idle.replaced
    · rw [Aged, Circuit.replaced_ages]
      exact aged
    · rw [← card_agesOf, Circuit.replaced_ages, card_agesOf]
  exact replaced.trans (modSlot_sustains (replaceVersion_top _ t))

theorem storeSubstitute_sustains (s : State) (n : SlotNo) (t : TakeNo) : Sustains s (storeSubstitute s n t) := by
  unfold storeSubstitute
  dsimp only
  split
  · exact replaceText_sustains s n t
  · split
    · have released : Sustains (replaceText s n t) (modTake (replaceText s n t) n t fun x => { x with state := .released }) :=
        modTake_sustains fun _ _ => id
      exact ((replaceText_sustains s n t).trans released).trans (makeFor_sustains _ n t _ _ _)
    · exact (replaceText_sustains s n t).trans (gate_sustains _ n t)

theorem takeEnds_sustains (s : State) (n : SlotNo) (t : TakeNo) (cut : Bool) : Sustains s (takeEnds s n t cut) := by
  have ended : Sustains s (if cut then endCut s n t else s) := by
    split
    · exact endCut_sustains s n t
    · exact .refl s
  have left := (ended.trans (modTake_sustains (n := n) (t := t) (f := fun x => { x with fillingLine := none })
    fun _ _ => id)).trans (slotToFront_sustains _ n)
  unfold takeEnds
  split
  · exact .refl s
  · dsimp only
    split
    · exact left.trans (gate_sustains _ n t)
    · exact left.trans (storeSubstitute_sustains _ n t)

/-! ### A header handed over (R65 to R68) -/

section OneLine

variable (s : State) (l : LineNo)

/-- A change of a framer that leaves its header text within the limit. -/
theorem modFramer_sustains {f : Framer → Framer}
    (header : s.lines[l].framer.header.length ≤ 64 → (f s.lines[l].framer).header.length ≤ 64) :
    Sustains s (modFramer s l f) := modLine_sustains (fun fits => ⟨fits.1, header fits.2⟩) id

theorem modLineCounters_sustains {f : LineCounters → LineCounters}
    (top : s.lines[l].counters.AtMostTop → (f s.lines[l].counters).AtMostTop) : Sustains s (modLineCounters s l f) :=
  modLine_sustains id top

theorem allocate_sustains (n : SlotNo) (k : Key) : Sustains s (allocate s n k) :=
  Sustains.trans (modSlot_sustains fun _ => Slot.AtMostTop.of_none rfl) (slotToFront_sustains _ n)

theorem openFirst_sustains (n : SlotNo) (h : CopyHeader) : Sustains s (modSlot s n (openFirst l h)) := by
  obtain ⟨-, -, -, takes⟩ := openFirst_same l h s.slots[n]
  refine modSlot_sustains fun top => top.put takes ?_
  unfold firstTake
  dsimp only
  split <;> decide

theorem openSubstitute_sustains {n : SlotNo} {h : CopyHeader} {k : Take} (take : takeAt s n h.take = some k) :
    Sustains s (modSlot s n (openSubstitute l h)) := by
  unfold takeAt at take
  obtain ⟨-, -, -, takes⟩ := openSubstitute_same l h s.slots[n]
  have takes : (openSubstitute l h s.slots[n]).takes = put s.slots[n].takes h.take (some (openedOver l h k)) := by
    rw [takes, modAt, take]
    rfl
  exact modSlot_sustains fun top => top.put takes (top h.take k take :)

theorem countRefused_sustains : Sustains s (modLineCounters s l fun c => { c with refused := count c.refused }) :=
  modLineCounters_sustains s l fun ⟨a, b, d, e, _, f⟩ => ⟨a, b, d, e, count_le _, f⟩

theorem countHeaderFault_sustains :
    Sustains s (modLineCounters s l fun c => { c with headerFaults := count c.headerFaults }) :=
  modLineCounters_sustains s l fun ⟨a, _, d, e, f, g⟩ => ⟨a, count_le _, d, e, f, g⟩

theorem countDuplicate_sustains :
    Sustains s (modLineCounters s l fun c => { c with duplicates := count c.duplicates }) :=
  modLineCounters_sustains s l fun ⟨a, b, d, _, f, g⟩ => ⟨a, b, d, count_le _, f, g⟩

theorem handOver_sustains (h : CopyHeader) : Sustains s (handOver s l h).1 := by
  unfold handOver
  split
  · split
    · exact (raise_sustains s _ _).trans (countRefused_sustains _ l)
    · exact (allocate_sustains s _ _).trans (openFirst_sustains _ l _ h)
  · split
    · exact (raise_sustains s _ _).trans (countHeaderFault_sustains _ l)
    · split
      · exact openFirst_sustains s l _ h
      · next k take =>
        split
        · exact openSubstitute_sustains s l take
        · exact countDuplicate_sustains s l

/-! ### Messages (R162 to R165) -/

theorem releaseBuffer_sustains : Sustains s (releaseBuffer s) :=
  modMgmt_sustains fun fits => ⟨Nat.zero_le _, Nat.zero_le _, fits.2.2⟩

theorem dropMessage_sustains : Sustains s (dropMessage s) := by
  unfold dropMessage
  split
  · exact releaseBuffer_sustains s
  · exact (placeReply_sustains s _).trans (releaseBuffer_sustains _)

theorem messageClosed_sustains : Sustains s (messageClosed s) := by
  have executing : Sustains s (modMgmt s fun m => { m with buffer := .executing }) := modMgmt_sustains id
  unfold messageClosed
  dsimp only
  split
  · exact executing.trans (releaseBuffer_sustains _)
  · split
    · exact (executing.trans (placeReply_sustains _ _)).trans (releaseBuffer_sustains _)
    · split
      · exact ((executing.trans (raise_sustains _ _ _)).trans (placeReply_sustains _ _)).trans (releaseBuffer_sustains _)
      · exact executing.trans (modMgmt_sustains id)

theorem endRequestLine_fits {m : Mgmt} (fits : m.Fits) : (endRequestLine m).Fits := by
  unfold endRequestLine
  dsimp only
  split
  · exact ⟨fits.1, Nat.zero_le _, fits.2.2⟩
  · split
    · next room =>
      refine ⟨?_, Nat.zero_le _, fits.2.2⟩
      rw [List.length_append, List.length_singleton]
      exact room
    · exact ⟨fits.1, Nat.zero_le _, fits.2.2⟩

theorem collectChar_fits {h : House} {m : Mgmt} (fits : m.Fits) : (collectChar h m).Fits := by
  unfold collectChar
  split
  · exact fits
  · split
    · next room =>
      refine ⟨fits.1, ?_, fits.2.2⟩
      rw [List.length_append, List.length_singleton]
      exact room
    · exact fits

theorem passOn_sustains (h : House) : Sustains s (passOn s l h) := by
  unfold passOn
  dsimp only
  split
  · split
    · exact writeChar_sustains s _ _ h
    · exact .refl s
  · split
    · exact modMgmt_sustains endRequestLine_fits
    · split
      · exact .refl s
      · exact modMgmt_sustains collectChar_fits
  · exact .refl s

theorem passSlashes_sustains (j : Nat) : Sustains s (passSlashes s l j) := by
  induction j generalizing s with
  | zero => exact .refl s
  | succ j ih => exact (passOn_sustains s l _).trans (ih _)

theorem endMessageCut_sustains : Sustains s (endMessageCut s l) := by
  have slashes := passSlashes_sustains s l s.lines[l].framer.held
  unfold endMessageCut
  dsimp only
  split
  · split
    · exact slashes.trans (takeEnds_sustains _ _ _ true)
    · exact slashes
  · exact slashes.trans (dropMessage_sustains _)
  · split
    · exact .refl s
    · exact dropMessage_sustains s
  · exact .refl s

/-! ### Framers (R17 to R34) -/

theorem toHunt_sustains : Sustains s (toHunt s l) := modFramer_sustains s l fun _ => Nat.zero_le _

theorem toDiscard_sustains (b : Bool) : Sustains s (toDiscard s l b) := modFramer_sustains s l id

theorem framerAbandons_sustains : Sustains s (framerAbandons s l) :=
  (endMessageCut_sustains s l).trans (toHunt_sustains _ l)

theorem askBuffer_sustains : Sustains s (askBuffer s l).1 := by
  unfold askBuffer
  split
  · exact modMgmt_sustains (f := fun m => { m.released with buffer := .opened, holder := some l })
      fun fits => ⟨Nat.zero_le _, Nat.zero_le _, fits.2.2⟩
  · exact (countRefused_sustains s l).trans (placeReply_sustains _ _)

theorem takeOpening_sustains (k : MessageKind) : Sustains s (takeOpening s l k) := by
  have taken : Sustains s (modFramer (modLineCounters s l fun c => { c with messagesTaken := count c.messagesTaken }) l
      fun f => { f with header := [], takeRef := none, held := 0, lineStart := false }) :=
    (modLineCounters_sustains s l fun top => ⟨count_le _, top.2⟩).trans (modFramer_sustains _ l fun _ => Nat.zero_le _)
  unfold takeOpening
  dsimp only
  split
  · exact taken.trans (modFramer_sustains _ l id)
  · split
    · exact (taken.trans (askBuffer_sustains _ l)).trans (modFramer_sustains _ l id)
    · exact (taken.trans (askBuffer_sustains _ l)).trans (toDiscard_sustains _ l _)

theorem countStray_sustains (k : Nat) : Sustains s (countStray s l k) :=
  modLineCounters_sustains s l fun ⟨a, b, d, e, f, _⟩ => ⟨a, b, d, e, f, Nat.min_le_right ..⟩

theorem huntChar_sustains (h : House) : Sustains s (huntChar s l h) := by
  unfold huntChar
  dsimp only
  split
  · split
    · exact countStray_sustains s l _
    · exact modFramer_sustains s l id
  · split
    · exact takeOpening_sustains s l _
    · split
      · exact takeOpening_sustains s l _
      · exact (modFramer_sustains s l id).trans (countStray_sustains _ l _)

theorem copyHeaderFault_sustains (b : Bool) : Sustains s (copyHeaderFault s l b) :=
  ((raise_sustains s _ _).trans (countHeaderFault_sustains _ l)).trans (toDiscard_sustains _ l b)

theorem managementHeaderFault_sustains (b : Bool) : Sustains s (managementHeaderFault s l b) :=
  ((raise_sustains s _ _).trans (dropMessage_sustains _)).trans (toDiscard_sustains _ l b)

theorem headerEnds_sustains : Sustains s (headerEnds s l) := by
  unfold headerEnds
  dsimp only
  split
  · split
    · exact copyHeaderFault_sustains s l true
    · unfold handCopyHeader
      dsimp only
      split
      · exact (handOver_sustains s l _).trans (modFramer_sustains _ l id)
      · exact (handOver_sustains s l _).trans (toDiscard_sustains _ l _)
  · split
    · exact managementHeaderFault_sustains s l true
    · exact Sustains.trans (modMgmt_sustains id) (modFramer_sustains _ l id)

theorem headerChar_sustains (h : House) : Sustains s (headerChar s l h) := by
  unfold headerChar
  split
  · exact headerEnds_sustains s l
  · split
    · exact .refl s
    · split
      · next room =>
        refine modFramer_sustains s l fun _ => ?_
        rw [List.length_append, List.length_singleton]
        exact room
      · unfold headerFault
        split
        · exact copyHeaderFault_sustains s l false
        · exact managementHeaderFault_sustains s l false

theorem takeClosing_sustains : Sustains s (takeClosing s l) := by
  have hunting := toHunt_sustains s l
  unfold takeClosing
  dsimp only
  split
  · split
    · exact hunting.trans (takeEnds_sustains _ _ _ false)
    · exact hunting
  · exact hunting.trans (messageClosed_sustains _)
  · exact hunting

theorem decide27_sustains (j : Nat) (h : House) : Sustains s (decide27 s l j h) :=
  ((passSlashes_sustains s l j).trans (passOn_sustains _ l h)).trans (modFramer_sustains _ l id)

end OneLine

section Between

variable {between : State → State} (comes : ∀ s, Sustains s (between s)) (s : State) (l : LineNo)

include comes

theorem openingInBody_sustains (k : MessageKind) : Sustains s (openingInBody between s l k) := by
  have cut := (modFramer_sustains s l (f := fun f => { f with held := 0 }) id).trans (endMessageCut_sustains _ l)
  unfold openingInBody
  dsimp only
  split
  · exact (cut.trans (comes _)).trans (takeOpening_sustains _ l k)
  · exact cut.trans (takeOpening_sustains _ l k)

theorem bodyChar_sustains (h : House) : Sustains s (bodyChar between s l h) := by
  unfold bodyChar
  dsimp only
  split
  · split
    · exact modFramer_sustains s l id
    · exact (passOn_sustains s l h).trans (modFramer_sustains _ l id)
  · split
    · split
      · exact modFramer_sustains s l id
      · exact decide27_sustains s l 1 h
    · split
      · exact openingInBody_sustains comes s l _
      · split
        · exact openingInBody_sustains comes s l _
        · split
          · exact takeClosing_sustains s l
          · exact decide27_sustains s l 2 h

theorem framerChar_sustains (h : House) : Sustains s (framerChar between s l h) := by
  unfold framerChar
  split
  · exact huntChar_sustains s l h
  · exact headerChar_sustains s l h
  · exact bodyChar_sustains comes s l h
  · exact bodyChar_sustains comes s l h
  · exact bodyChar_sustains comes s l h
  · exact .refl s

theorem goodCharacter_sustains (code : LineCode) : Sustains s (goodCharacter between s l code) := by
  have received : Sustains s (receiveCode between s l code) := by
    unfold receiveCode
    dsimp only
    split
    · exact Sustains.trans (modLine_sustains id id) (framerChar_sustains comes _ l _)
    · exact modLine_sustains id id
  exact received.trans (Sustains.trans (modLine_sustains id id) (modLine_sustains id id))

end Between

/-! ### Characters, breaks, silence and lines set afresh (R5 to R12) -/

section Receivers

variable (s : State) (l : LineNo)

theorem openedByAnother_sustains (i : Instr) : Sustains s (openedByAnother l s i) := by
  unfold openedByAnother
  split
  · dsimp only
    split
    · exact goodCharacter_sustains .refl s _ _
    · exact .refl s
  · exact .refl s

theorem betweenDropAndRequest_sustains : Sustains s (betweenDropAndRequest l s) :=
  inGap_sustains (fun s i => openedByAnother_sustains s l i) s

theorem badCharacter_sustains (code : LineCode) : Sustains s (badCharacter s l code) :=
  ((((framerChar_sustains .refl s l _).trans (modLineCounters_sustains _ l
    fun ⟨a, b, _, d, e, f⟩ => ⟨a, b, count_le _, d, e, f⟩)).trans (raise_sustains _ _ _)).trans
      (modLine_sustains id id)).trans (modLine_sustains id id)

theorem characterArrives_sustains (v : BitVec 7) (m : Bool) : Sustains s (characterArrives l v m s) := by
  unfold characterArrives
  dsimp only
  split
  · split
    · exact goodCharacter_sustains (fun s => betweenDropAndRequest_sustains s l) s l _
    · exact badCharacter_sustains s l _
  · exact .refl s

theorem breakBegins_sustains : Sustains s (breakBegins l s) := by
  unfold breakBegins
  dsimp only
  split
  · have broken : Sustains s (raise (modReceiver s l fun _ =>
        { state := .brk, breakWatch := none, markingInterval := none }) .lineBreak (.line l)) :=
      Sustains.trans (modLine_sustains id id) (raise_sustains _ _ _)
    exact ((broken.trans (framerAbandons_sustains _ l)).trans (modFramer_sustains _ l id)).trans (modLine_sustains id id)
  · exact .refl s

theorem breakEnds_sustains : Sustains s (breakEnds l s) := by
  unfold breakEnds
  dsimp only
  split
  · have rested : Sustains s (modReceiver s l fun _ => Receiver.reset) := modLine_sustains id id
    exact (rested.trans (toHunt_sustains _ l)).trans (modLine_sustains id id)
  · exact .refl s

theorem lineSilent_sustains : Sustains s (lineSilent l s) := by
  unfold lineSilent
  split
  · exact .refl s
  · exact Sustains.trans (modLine_sustains id id) (raise_sustains _ _ _)

theorem falseStart_sustains : Sustains s (falseStart l s) := by
  unfold falseStart
  split
  · exact modLine_sustains id id
  · exact .refl s

theorem setLine_sustains {d : LineDesc} (silence : d.silenceLimit ≤ 255) : Sustains s (setLine s l d) := by
  have set : Sustains s (modLine s l fun x => { x with desc := d, outOfService := false }) :=
    modLine_sustains (fun fits => ⟨silence, fits.2⟩) id
  exact ((set.trans (modLine_sustains id id)).trans (framerAbandons_sustains _ l)).trans (modLine_sustains id id)

theorem lineOut_sustains : Sustains s (lineOut s l) := by
  have out : Sustains s (modLine s l fun x => { x with outOfService := true }) := modLine_sustains id id
  exact ((out.trans (modLine_sustains id id)).trans (modLine_sustains id id)).trans (framerAbandons_sustains _ l)

end Receivers

end Sys2Proof.Machine
/-! ## The ranges and the pool of every command (O50, O52)

Circuits out of service, slots cleared, the requests, and the step. -/

namespace Sys2Proof.Machine

open Sys2Proof

/-! ### Circuits out of service, and changes of all lines and circuits (R109, R154, R175, R194, R198) -/

theorem raiseStanding_sustains (s : State) : Sustains s (raiseStanding s) := by
  unfold raiseStanding
  split
  · exact raise_sustains s _ _
  · exact .refl s

theorem disposeRecord_upkeep (c : CircuitNo) (s : State) (r : Rec) (g : List Rec) :
    Upkeep (r :: g) s g (disposeRecord c s r) :=
  ((returnRecord_upkeep s r g).trans (countMissed_sustains _ c g)).trans (raiseMissed_sustains _ c _ g)

theorem disposeRecords_upkeep (c : CircuitNo) (rs : List Rec) (s : State) (g : List Rec) :
    Upkeep (rs ++ g) s g (rs.foldl (disposeRecord c) s) := by
  induction rs generalizing s with
  | nil => exact .refl g s
  | cons r rs ih => exact (disposeRecord_upkeep c s r (rs ++ g)).trans (ih _)

theorem disposeCarried_upkeep (s : State) (c : CircuitNo) (x : Carried) (g : List Rec) :
    Upkeep (x.records ++ g) s g (disposeCarried s c x) := by
  cases x with
  | nothing => exact .refl g s
  | report => exact .refl g s
  | record r =>
    unfold disposeCarried
    dsimp only
    split
    · exact returnRecord_upkeep s r g
    · exact disposeRecord_upkeep c s r g

theorem circuitOut_sustains (s : State) (c : CircuitNo) : Sustains s (circuitOut s c) := by
  let x := s.circuits[c]
  intro g
  have emptied : Upkeep g s (x.sender.carried.records ++ ((x.sender.chain ++ x.queue) ++ g))
      (modCircuit s c fun y => { y with queue := [], sender := { y.sender.halted with chain := [] } }) := by
    refine modCircuit_upkeep (.of_ages id id ?_ fun _ => idle_of_nothing rfl)
    simp only [Circuit.agesOf_records, Sender.halted, Carried.records, agesOf_append, agesOf_nil, x]
    abel
  exact (emptied.trans (disposeCarried_upkeep _ c _ _)).trans (disposeRecords_upkeep c _ _ g)

theorem markCircuit_sustains (s : State) (c : CircuitNo) : Sustains s (markCircuit s c) := by
  have same : SameTraffic s.circuits[c] { s.circuits[c] with outOfService := true } := ⟨rfl, rfl, rfl, id⟩
  have marked : Sustains s (modCircuit s c fun x => { x with outOfService := true }) :=
    fun g => modCircuit_upkeep (same.exchanges id id g)
  exact marked.trans (circuitOut_sustains _ c)

theorem markUnsound_sustains (s : State) : Sustains s (markUnsound s) :=
  (foldl_sustains _ lineOut_sustains _ s).trans (foldl_sustains _ markCircuit_sustains _ _)

/-- The window of a new mode is in order. -/
theorem mode_sustains {s : State} {m : Mode}
    (window : s.mode.windowFirst ≤ s.mode.windowLast → m.windowFirst ≤ m.windowLast) : Sustains s { s with mode := m } :=
  fun g => { Upkeep.refl g s with tables := fun h => ⟨h.bases, h.climbs, window h.window, h.takeWait⟩ }

theorem tableCheck_sustains (s : State) : Sustains s (tableCheck s) := by
  have told (a : State) (lf cf : CheckFlag) :
      Sustains a { a with mode := { a.mode with loadedFlag := lf, consistentFlag := cf } } := mode_sustains id
  have flagged := (markUnsound_sustains s).trans (told _ (checkFlag (allLoaded s))
    (checkFlag (allMatched s && circuitInService (markUnsound s).circuits[(markUnsound s).mgmt.reportCircuit])))
  unfold tableCheck
  dsimp only
  split
  · exact flagged.trans (raise_sustains _ _ _)
  · exact flagged

theorem changeMode_sustains {s : State} {f : Mode → Mode}
    (window : s.mode.windowFirst ≤ s.mode.windowLast → (f s.mode).windowFirst ≤ (f s.mode).windowLast) :
    Sustains s (changeMode s f) :=
  (mode_sustains window).trans (foldl_sustains _ (tellDegree_sustains s.mode) (List.finRange 16) _)

theorem setCircuit_sustains (s : State) (c : CircuitNo) {d : CircuitDesc} (fits : d.Fits) : Sustains s (setCircuit s c d) := by
  have same : SameTraffic s.circuits[c] { s.circuits[c] with desc := d, outOfService := false } := ⟨rfl, rfl, rfl, id⟩
  have set : Sustains s (modCircuit s c fun x => { x with desc := d, outOfService := false }) :=
    fun g => modCircuit_upkeep (same.exchanges (fun _ => fits) id g)
  unfold setCircuit
  dsimp only
  split
  · exact set.trans (circuitOut_sustains _ c)
  · exact set.trans (workTest_sustains _ c)

theorem cutReport_sustains (s : State) (c : CircuitNo) : Sustains s (modSender s c cutReport) := by
  have cut (x : Sender) : (cutReport x).state = x.state ∧ (cutReport x).carried = x.carried ∧ (cutReport x).chain = x.chain ∧
      (x.AtMostTop → (cutReport x).AtMostTop) := by
    unfold cutReport
    split <;> exact ⟨rfl, rfl, rfl, id⟩
  obtain ⟨state, carried, chain, counters⟩ := cut s.circuits[c].sender
  exact modSender_sustains state carried chain counters

theorem moveReports_sustains (s : State) (c : CircuitNo) : Sustains s (moveReports s c) := by
  unfold moveReports
  dsimp only
  split
  · exact .refl s
  · have moved : Sustains s (modMgmt s fun m => { m with reportCircuit := c }) := modMgmt_sustains id
    exact ((moved.trans (cutReport_sustains _ _)).trans (tellWithheldMore_sustains _ _)).trans (offer_sustains _ c)

theorem runOnEnds_sustains (c : CircuitNo) (s : State) : Sustains s (runOnEnds c s) := by
  unfold runOnEnds
  split
  · next pausing => exact modSender_emptied_sustains (idle_pausing (.inr (.inr pausing))) rfl rfl id
  · exact .refl s

/-- R109: an age stops at its top. -/
theorem ageQueues_sustains (s : State) : Sustains s (ageQueues s) := by
  refine mapCircuits_sustains (fun _ => id) (fun _ => id) (fun x old => ?_) (fun x => ?_) fun _ => id
  · obtain ⟨-, chain, carried⟩ := aged_records_iff.mp old
    refine aged_records_iff.mpr ⟨fun r mem => ?_, chain, carried⟩
    obtain ⟨y, -, rfl⟩ := List.mem_map.mp mem
    exact satInc_le 4095 _
  · simp only [Circuit.records, List.length_append, List.length_map]

theorem mapLines_sustains {s : State} {f : Line → Line} (fits : ∀ x : Line, x.Fits → (f x).Fits)
    (counters : ∀ x : Line, x.counters.AtMostTop → (f x).counters.AtMostTop) :
    Sustains s { s with lines := mapAll s.lines f } :=
  fun g => { Upkeep.refl g s with
    lines := all_mapAll fits
    lineCounters := all_mapAll (P := fun x : Line => x.counters.AtMostTop) (Q := fun x : Line => x.counters.AtMostTop) counters }

theorem LineCounters.zero_top : LineCounters.zero.AtMostTop := by
  simp [LineCounters.AtMostTop, LineCounters.zero]

theorem zeroCounters_sustains (s : State) : Sustains s (zeroCounters s) := by
  have circuits : Sustains s { s with circuits := mapAll s.circuits fun x =>
      { x with sender := { x.sender with completed := 0, missed := 0, breaksIn := 0 } } } :=
    mapCircuits_sustains (fun _ => id) (fun _ _ => ⟨Nat.zero_le _, Nat.zero_le _, Nat.zero_le _⟩) (fun _ => id)
      (fun _ => rfl) fun _ => id
  exact circuits.trans (mapLines_sustains (f := fun x => { x with counters := LineCounters.zero }) (fun _ => id)
    fun _ _ => LineCounters.zero_top)

theorem switchFramers_sustains (p : SlotNo → Bool) (s : State) : Sustains s (switchFramers p s) := by
  refine mapLines_sustains (fun x => ?_) fun x => ?_
  · split
    · split
      · exact id
      · exact id
    · exact id
  · split
    · split
      · exact id
      · exact id
    · exact id

/-! ### Slots cleared, and the resets (R63, R86 to R88, R195, R196, R202) -/

theorem Slot.freed_top : Slot.freed.AtMostTop := .of_none rfl

theorem freed_slots_top (n : SlotNo) : (Vector.replicate 40 Slot.freed)[n].AtMostTop := by
  have slot : (Vector.replicate 40 Slot.freed)[n] = Slot.freed := by simp
  rw [slot]
  exact Slot.freed_top

theorem clearUnheld_sustains (s : State) : Sustains s
    { s with slots := mapAll s.slots fun x => if evictable x then Slot.freed else x, recency := recencyReset } := by
  refine slots_sustains (all_mapAll fun x top => ?_)
  split
  · exact Slot.freed_top
  · exact top

theorem clearStore_sustains (s : State) : Sustains s (clearStore s) :=
  ((pullRecords_sustains _ _ s).trans (switchFramers_sustains _ _)).trans (slots_sustains fun _ => freed_slots_top)

theorem withdrawStory_sustains (s : State) (n : SlotNo) : Sustains s (withdrawStory s n) := by
  have switched := (pullRecords_sustains (names n) .withdrawal s).trans (switchFramers_sustains (fun m => m = n) _)
  unfold withdrawStory
  dsimp only
  split
  · exact switched.trans (modSlot_sustains fun _ => .of_none rfl)
  · have freed := switched.trans (modSlot_sustains (n := n) (f := fun _ => Slot.freed) fun _ => Slot.freed_top)
    exact freed.trans (slotToTail_sustains _ n)

/-- A clear entry owes nothing. -/
theorem clearEntry_sound (alert : Bool) (e : LatchEntry) : (clearEntry e).Sound alert :=
  ⟨fun _ => ⟨rfl, rfl, rfl⟩, nofun, nofun⟩

theorem standing_none {v : Vector Circuit 16} (none : ∀ c : CircuitNo, v[c].records = []) : standing v = 0 :=
  Finset.sum_eq_zero fun c _ => by rw [none c, List.length_nil]

/-- With nothing on the circuits the whole pool is free. -/
theorem poolBooks_none {v : Vector Circuit 16} (none : ∀ c : CircuitNo, v[c].records = [])
    (nothing : ∀ c : CircuitNo, v[c].sender.carried = .nothing) : PoolBooks [] 192 v :=
  ⟨by rw [standing_none none, List.length_nil], fun c => idle_of_nothing (nothing c)⟩

theorem aged_nil : Aged [] := fun _ mem => absurd mem (Multiset.notMem_zero _)

theorem restart_upkeep (s : State) : Upkeep [] s [] (restart s) := by
  have circuit (c : CircuitNo) : (restart s).circuits[c] = s.circuits[c].restarted := mapAll_get _ _ c
  have records (c : CircuitNo) : (restart s).circuits[c].records = [] := by rw [circuit]; rfl
  refine ⟨⟨fun h => ⟨h.bases, h.climbs, h.window, h.takeWait⟩, ?_, fun _ => ?_, ?_, fun _ c => ?_,
    fun _ => ⟨fun c => ?_, aged_nil⟩, ?_, fun _ => freed_slots_top, ?_, ?_⟩, ?_⟩
  · exact all_mapAll fun x fits => ⟨fits.1, Nat.zero_le _⟩
  · intro l
    have line : (restart s).lines[l] = s.lines[l].restarted := mapAll_get _ _ l
    rw [line]
    exact LineCounters.zero_top
  · exact all_mapAll (P := fun x : Circuit => x.desc.Fits) (Q := fun x : Circuit => x.desc.Fits) fun _ => id
  · rw [circuit]
    exact ⟨Nat.zero_le _, Nat.zero_le _, Nat.zero_le _⟩
  · rw [records]
    exact aged_nil
  · exact fun fits => ⟨fits.1, fits.2.1, Nat.zero_le _⟩
  · exact all_mapAll (P := fun e : LatchEntry => e.count ≤ 255) (Q := fun e : LatchEntry => e.count ≤ 255)
      fun _ _ => Nat.zero_le _
  · exact all_mapAll (P := LatchEntry.Sound s.latch.alertMode) (Q := LatchEntry.Sound s.latch.alertMode)
      fun e _ => clearEntry_sound _ e
  · exact fun _ => poolBooks_none records fun c => by rw [circuit]; rfl

theorem reset_tables_fit : TablesFit precedenceReset Mode.reset 120 :=
  ⟨by decide, by decide, by decide, by decide⟩

theorem circuitReset_fits (c : CircuitNo) : (CircuitDesc.reset c).Fits := by
  simp only [CircuitDesc.Fits, CircuitDesc.reset]
  split <;> decide

theorem pinReset_upkeep (s : State) : Upkeep [] s [] (pinReset s) := by
  have circuit (c : CircuitNo) : (pinReset s).circuits[c] = Circuit.reset c := tabulate_get _ c
  have line (l : LineNo) : (pinReset s).lines[l] = { Line.reset l with input := s.lines[l].input } := tabulate_get _ l
  have entry (k : Fin 12) : (pinReset s).latch.entries[k] = LatchEntry.clear := by simp [pinReset, State.reset, Latch.reset]
  have records (c : CircuitNo) : (pinReset s).circuits[c].records = [] := by rw [circuit]; rfl
  refine ⟨⟨fun _ => reset_tables_fit, fun _ l => ?_, fun _ l => ?_, fun _ c => ?_, fun _ c => ?_,
    fun _ => ⟨fun c => ?_, aged_nil⟩, fun _ => ?_, fun _ => freed_slots_top, fun _ k => ?_, fun _ k => ?_⟩, ?_⟩
  · rw [line]
    exact ⟨Nat.zero_le _, Nat.zero_le _⟩
  · rw [line]
    exact LineCounters.zero_top
  · rw [circuit]
    exact circuitReset_fits c
  · rw [circuit]
    exact ⟨Nat.zero_le _, Nat.zero_le _, Nat.zero_le _⟩
  · rw [records]
    exact aged_nil
  · exact ⟨Nat.zero_le _, Nat.zero_le _, Nat.zero_le _⟩
  · rw [entry]
    exact Nat.zero_le _
  · rw [entry]
    exact clearEntry_sound _ LatchEntry.clear
  · exact fun _ => poolBooks_none records fun c => by rw [circuit]; rfl

theorem resetAsserted_sustains (s : State) : Sustains s { s with
    resetLow := true
    circuits := mapAll s.circuits fun x => { x with sender := { x.sender with motor := false, sending := none } } } := by
  have halted : Sustains s { s with
      circuits := mapAll s.circuits fun x => { x with sender := { x.sender with motor := false, sending := none } } } :=
    mapCircuits_sustains (fun _ => id) (fun _ => id) (fun _ => id) (fun _ => rfl) fun _ => id
  exact halted.trans (SameParts.sustains {})

end Sys2Proof.Machine
namespace Sys2Proof.Machine

open Sys2Proof

/-! ### Requests that change no part with ranges

In each branch such a request is refused, or changes a table of another block. -/

section Tables

variable (ops : List Text) (s : State)

theorem bodyBankkind_sustains : Sustains s (bodyBankkind ops s).1 := by
  unfold bodyBankkind withBank
  repeat' split
  all_goals exact SameParts.sustains {}

theorem bodyBankin_sustains : Sustains s (bodyBankin ops s).1 := by
  unfold bodyBankin withBank bankinEntries
  dsimp only
  repeat' split
  all_goals exact SameParts.sustains {}

theorem bodyBankout_sustains : Sustains s (bodyBankout ops s).1 := by
  unfold bodyBankout withBank
  dsimp only
  repeat' split
  all_goals exact SameParts.sustains {}

theorem bodyBanksub_sustains : Sustains s (bodyBanksub ops s).1 := by
  unfold bodyBanksub withBank
  dsimp only
  repeat' split
  all_goals exact SameParts.sustains {}

theorem bodyBankshift_sustains : Sustains s (bodyBankshift ops s).1 := by
  unfold bodyBankshift withBank
  dsimp only
  repeat' split
  all_goals exact SameParts.sustains {}

theorem bodyRoute_sustains : Sustains s (bodyRoute ops s).1 := by
  unfold bodyRoute
  repeat' split
  all_goals exact SameParts.sustains {}

theorem bodyRouteoff_sustains : Sustains s (bodyRouteoff ops s).1 := by
  unfold bodyRouteoff
  repeat' split
  all_goals exact SameParts.sustains {}

theorem membership_sustains (f : Bool → Bool) : Sustains s (membership f ops s).1 := by
  unfold membership
  repeat' split
  all_goals exact SameParts.sustains {}

theorem bodyDefaults_sustains : Sustains s (bodyDefaults ops s).1 := by
  unfold bodyDefaults
  repeat' split
  all_goals exact SameParts.sustains {}

theorem bodyFlashset_sustains : Sustains s (bodyFlashset ops s).1 := by
  unfold bodyFlashset
  repeat' split
  all_goals exact SameParts.sustains {}

theorem bodyQueue_sustains : Sustains s (bodyQueue ops s).1 := by
  unfold bodyQueue
  repeat' split
  all_goals exact .refl s

theorem bodyStory_sustains : Sustains s (bodyStory ops s).1 := by
  unfold bodyStory withStory
  repeat' split
  all_goals exact .refl s

theorem bodyCounts_sustains : Sustains s (bodyCounts ops s).1 := by
  unfold bodyCounts
  repeat' split
  all_goals exact .refl s

end Tables

/-! ### Tables with ranges (R56, R89, R107) -/

section Ranged

variable (ops : List Text) (s : State)

theorem bodyLinebank_sustains : Sustains s (bodyLinebank ops s).1 := by
  unfold bodyLinebank
  split
  · split
    · split
      · exact .refl s
      · split
        · exact .refl s
        · split
          · exact modLine_sustains id id
          · exact .refl s
    · exact .refl s
  · exact .refl s

/-- R107: only a table in range is loaded. -/
theorem precedence_sustains {s : State} {p : Vector PrecRow 5} (bases : basesInRange p = true ∧ basesDecrease p = true)
    (climbs : ∀ i : Fin 5, p[i].climb ≤ 15) : Sustains s { s with precedence := p } :=
  fun g => { Upkeep.refl g s with tables := fun h => ⟨bases, climbs, h.window, h.takeWait⟩ }

theorem bodyPrecedence_sustains : Sustains s (bodyPrecedence ops s).1 := by
  unfold bodyPrecedence
  split
  · exact .refl s
  · split
    · dsimp only
      split
      · next inOrder =>
        refine precedence_sustains (Bool.and_eq_true_iff.mp inOrder) ?_
        simp [Fin.forall_fin_succ]
      · exact .refl s
    · exact .refl s

theorem bodyTakewait_sustains : Sustains s (bodyTakewait ops s).1 := by
  have limited (n : Nat) : Sustains s { s with takeWait := min n 255 } :=
    fun g => { Upkeep.refl g s with tables := fun h => ⟨h.bases, h.climbs, h.window, Nat.min_le_right ..⟩ }
  unfold bodyTakewait
  split
  · split
    · exact .refl s
    · exact limited _
  · exact .refl s

/-! ### Events (R182 to R190) -/

theorem clearEntry_sustains (k : EventKind) : Sustains s (modEntry s k clearEntry) :=
  modEntry_sustains (fun _ => Nat.zero_le _) fun _ => clearEntry_sound _ _

theorem bodyEvents_sustains : Sustains s (bodyEvents ops s).1 := by
  unfold bodyEvents
  split
  · exact .refl s
  · split
    · exact .refl s
    · split
      · exact .refl s
      · exact clearEntry_sustains s _

theorem bodyClearevent_sustains : Sustains s (bodyClearevent ops s).1 := by
  unfold bodyClearevent
  split
  · split
    · exact .refl s
    · exact clearEntry_sustains s _
  · exact .refl s

theorem setMask_sustains (k : EventKind) (on : Bool) : Sustains s (setMask s k on) := by
  have masked : Sustains s (modEntry s k fun e => { e with masked := true, owed := false }) :=
    modEntry_sustains id fun h => ⟨fun clear => ⟨(h.clear clear).1, (h.clear clear).2.1, rfl⟩, h.latched, nofun⟩
  have unmasked : Sustains s (modEntry s k fun e => { e with masked := false }) :=
    modEntry_sustains id fun h => ⟨h.clear, h.latched, fun owed => ⟨(h.owed owed).1, rfl, (h.owed owed).2.2⟩⟩
  unfold setMask
  split
  · exact .refl s
  · split
    · exact masked
    · dsimp only
      split
      · next due =>
        rw [Bool.and_eq_true] at due
        refine unmasked.trans (alertDue_sustains ?_)
        rw [entryOf_modEntry_same]
        exact ⟨due.2, rfl, due.1⟩
      · exact unmasked

theorem alertDue_alertMode (k : EventKind) : (alertDue s k).latch.alertMode = s.latch.alertMode := by
  unfold alertDue
  split
  · exact congrArg Latch.alertMode ((offer_only (modMgmt s _) _).latch)
  · rfl

theorem alertIfLatched_alertMode (k : EventKind) : (alertIfLatched s k).latch.alertMode = s.latch.alertMode := by
  unfold alertIfLatched
  split
  · exact alertDue_alertMode s k
  · rfl

/-- R187: with the alert mode ON the latched kinds fall due. -/
theorem alertsIfLatched_sustains (ks : List EventKind) {s : State} (alert : s.latch.alertMode = true) :
    Sustains s (ks.foldl alertIfLatched s) := by
  induction ks generalizing s with
  | nil => exact .refl s
  | cons k ks ih =>
    have due : Sustains s (alertIfLatched s k) := by
      unfold alertIfLatched
      split
      · next latched =>
        rw [Bool.and_eq_true, Bool.not_eq_true'] at latched
        exact alertDue_sustains ⟨latched.1, latched.2, alert⟩
      · exact .refl s
    exact due.trans (ih ((alertIfLatched_alertMode s k).trans alert))

theorem setAlerts_sustains (on : Bool) : Sustains s (setAlerts s on) := by
  have turnedOn : Sustains s { s with latch := { s.latch with alertMode := true } } := fun g => { Upkeep.refl g s with
    repeats := id
    latch := fun h k => ⟨(h k).clear, (h k).latched, fun owed => ⟨((h k).owed owed).1, ((h k).owed owed).2.1, rfl⟩⟩ }
  have turnedOff : Sustains s
      { s with latch := { entries := mapAll s.latch.entries fun e => { e with owed := false }, alertMode := false } } :=
    fun g => { Upkeep.refl g s with
      repeats := all_mapAll (P := fun e : LatchEntry => e.count ≤ 255) (Q := fun e : LatchEntry => e.count ≤ 255) fun _ => id
      latch := all_mapAll (P := LatchEntry.Sound s.latch.alertMode) (Q := LatchEntry.Sound false)
        fun e h => ⟨fun clear => ⟨(h.clear clear).1, (h.clear clear).2.1, rfl⟩, h.latched, nofun⟩ }
  unfold setAlerts
  split
  · exact .refl s
  · split
    · exact turnedOn.trans (alertsIfLatched_sustains allKinds rfl)
    · exact turnedOff

theorem Sustains.atOnce {s u : State} (h : Sustains s u) : Sustains s (atOnce u) := h.trans (atOnce_sustains u)

theorem done_sustains {t : State} {r : List Text} (h : Sustains s t) : Sustains s (done t r).1 := h

theorem bodyMask_sustains : Sustains s (bodyMask ops s).1 := by
  unfold bodyMask
  split
  · split
    · exact done_sustains s (setMask_sustains s _ _).atOnce
    · exact .refl s
  · exact .refl s

theorem bodyAlerts_sustains : Sustains s (bodyAlerts ops s).1 := by
  unfold bodyAlerts
  split
  · split
    · exact done_sustains s (setAlerts_sustains s _).atOnce
    · exact .refl s
  · exact .refl s

theorem bodyClearcounts_sustains : Sustains s (bodyClearcounts ops s).1 := by
  unfold bodyClearcounts
  split
  · exact .refl s
  · exact zeroCounters_sustains s

/-! ### Service and setup (R4, R5, R130, R131, R175, R197 to R203) -/

theorem noOperands_sustains {r : State × Answer} (h : Sustains s r.1) : Sustains s (noOperands ops s r).1 := by
  unfold noOperands
  split
  · exact h
  · exact .refl s

theorem bodyStatus_sustains : Sustains s (bodyStatus ops s).1 := noOperands_sustains ops s (.refl s)

theorem bodyRestart_sustains : Sustains s (bodyRestart ops s).1 :=
  noOperands_sustains ops s (done_sustains s (modMgmt_sustains id))

theorem bodyQuiet_sustains : Sustains s (bodyQuiet ops s).1 := by
  refine noOperands_sustains ops s ?_
  split
  · exact .refl s
  · exact done_sustains s (changeMode_sustains id).atOnce

theorem bodyWake_sustains : Sustains s (bodyWake ops s).1 := by
  refine noOperands_sustains ops s ?_
  split
  · exact done_sustains s ((tableCheck_sustains s).trans (changeMode_sustains id).atOnce)
  · exact .refl s

theorem bodyFull_sustains : Sustains s (bodyFull ops s).1 := by
  refine noOperands_sustains ops s ?_
  split
  · exact .refl s
  · exact done_sustains s (changeMode_sustains id).atOnce

theorem bodyReduced_sustains : Sustains s (bodyReduced ops s).1 := by
  unfold bodyReduced
  split
  · split
    · split
      · split
        · next inOrder => exact done_sustains s (changeMode_sustains fun _ => inOrder).atOnce
        · exact .refl s
      · exact .refl s
    · exact .refl s
  · exact .refl s

theorem bodyLine_sustains : Sustains s (bodyLine ops s).1 := by
  unfold bodyLine
  split
  · split
    · split
      · exact .refl s
      · split
        · exact .refl s
        · unfold lineJudged
          split
          · exact .refl s
          · split
            · exact done_sustains s (setLine_sustains s _ (Nat.min_le_right ..)).atOnce
            · exact .refl s
    · exact .refl s
  · exact .refl s

/-- R130: the three numbers of the forms are clamped. -/
theorem circuitForms_fits {rates width stop bank carriage delay runOn opt : Text} {d : CircuitDesc}
    (formed : circuitForms rates width stop bank carriage delay runOn opt = some d) : d.Fits := by
  unfold circuitForms at formed
  split at formed
  · cases formed
    exact ⟨Nat.le_max_left .., Nat.max_le.mpr ⟨by decide, Nat.min_le_left ..⟩, Nat.min_le_right .., Nat.min_le_right ..⟩
  · cases formed

theorem bodyCircuit_sustains : Sustains s (bodyCircuit ops s).1 := by
  unfold bodyCircuit
  split
  · split
    · next formed =>
      unfold circuitJudged
      split
      · exact .refl s
      · split
        · split
          · exact done_sustains s (setCircuit_sustains s _ (circuitForms_fits formed)).atOnce
          · exact .refl s
        · exact .refl s
    · exact .refl s
  · exact .refl s

theorem bodyReportto_sustains : Sustains s (bodyReportto ops s).1 := by
  unfold bodyReportto
  split
  · split
    · exact .refl s
    · split
      · exact .refl s
      · exact done_sustains s (moveReports_sustains s _).atOnce
  · exact .refl s

/-! ### Store requests (R83 to R88) -/

theorem withStory_sustains {f : SlotNo → State × Answer} (h : ∀ n, Sustains s (f n).1) :
    Sustains s (withStory ops s f).1 := by
  unfold withStory
  split
  · exact .refl s
  · split
    · exact .refl s
    · exact h _

theorem bare_sustains {r : State × Answer} (h : Sustains s r.1) : Sustains s (bare ops s r).1 := by
  unfold bare
  split
  · exact h
  · exact .refl s

theorem holdSlot_sustains (n : SlotNo) : Sustains s (holdSlot s n) :=
  Sustains.trans (modSlot_sustains id) (slotToFront_sustains _ n)

theorem bodyHold_sustains : Sustains s (bodyHold ops s).1 := by
  unfold bodyHold
  split
  · exact .refl s
  · split
    · split
      · exact holdSlot_sustains s _
      · exact .refl s
    · split
      · split
        · exact (allocate_sustains s _ _).trans (holdSlot_sustains _ _)
        · exact .refl s
      · exact .refl s

theorem bodyUnhold_sustains : Sustains s (bodyUnhold ops s).1 :=
  withStory_sustains ops s fun n =>
    Sustains.trans (u := slotToFront (modSlot s n fun x => { x with held := false }) n) (modSlot_sustains id)
      (slotToFront_sustains _ n)

theorem bodyUnholdall_sustains : Sustains s (bodyUnholdall ops s).1 :=
  bare_sustains ops s (slots_sustains (o := s.recency) (all_mapAll fun _ => id))

theorem repeatPair_sustains (n : SlotNo) (cls : Class) (a : Repeating) (p : TakeNo × CircuitNo) :
    Sustains a.state (repeatPair n cls a p).state := by
  have gap : Sustains a.state (inGap takenBeforeTurn a.state) := inGap_sustains takenBeforeTurn_sustains _
  unfold repeatPair repeatTurn
  dsimp only
  split
  · exact gap
  · split
    · exact gap
    · split
      · next free => exact gap.trans (makeFree_sustains rfl free p.2 n)
      · exact gap.trans (raise_sustains _ _ _)

theorem repeatPairs_sustains (n : SlotNo) (cls : Class) (ps : List (TakeNo × CircuitNo)) (a : Repeating) :
    Sustains a.state (ps.foldl (repeatPair n cls) a).state := by
  induction ps generalizing a with
  | nil => exact .refl _
  | cons p ps ih => exact (repeatPair_sustains n cls a p).trans (ih _)

theorem bodyRepeat_sustains : Sustains s (bodyRepeat ops s).1 := by
  unfold bodyRepeat
  split
  · exact .refl s
  · split
    · split
      · exact .refl s
      · split
        · exact .refl s
        · next n _ =>
          have made (cls ps) := repeatPairs_sustains n cls ps { state := s, queued := 0, unmade := 0 }
          exact done_sustains s ((made _ _).trans (slotToFront_sustains _ n)).atOnce
    · exact .refl s

theorem bodyWithdraw_sustains : Sustains s (bodyWithdraw ops s).1 :=
  withStory_sustains ops s fun n => withdrawStory_sustains s n

theorem bodyClearunheld_sustains : Sustains s (bodyClearunheld ops s).1 := bare_sustains ops s (clearUnheld_sustains s)

theorem bodyClearstore_sustains : Sustains s (bodyClearstore ops s).1 := bare_sustains ops s (clearStore_sustains s)

end Ranged

/-! ### Every command -/

theorem waitExpires_sustains (n : SlotNo) (t : TakeNo) (s : State) : Sustains s (waitExpires n t s) := by
  unfold waitExpires
  split
  · exact expireWait_sustains s n t
  · exact .refl s

theorem executionEnds_upkeep (s : State) : Upkeep [] s [] (executionEnds s) := by
  have restarted : Upkeep [] s [] (if s.mgmt.restartDue then restart s else s) := by
    split
    · exact restart_upkeep s
    · exact .refl [] s
  unfold executionEnds
  split
  · dsimp only
    split
    · exact restarted.trans ((placeReply_sustains _ _).trans (releaseBuffer_sustains _) [])
    · exact restarted.trans (releaseBuffer_sustains _ [])
  · exact .refl [] s

theorem runEvent_upkeep {f : State → State} {s u : State} (h : Upkeep [] s [] (f s)) (e : runEvent f s = .next u) :
    Upkeep [] s [] u := by
  unfold runEvent at e
  split at e <;> cases e
  · exact .refl [] s
  · exact h.trans (atOnce_sustains _ [])

theorem runEvent_sustains {f : State → State} {s u : State} (h : Sustains s (f s)) (e : runEvent f s = .next u) :
    Upkeep [] s [] u := runEvent_upkeep (h []) e

theorem runBareEvent_sustains {f : State → State} {s u : State} (h : Sustains s (f s)) (e : runBareEvent f s = .next u) :
    Upkeep [] s [] u := by
  unfold runBareEvent at e
  split at e <;> cases e
  · exact .refl [] s
  · exact h []

theorem popLine_sustains (s : State) : Sustains s (popLine s) := by
  refine modMgmt_sustains fun fits => ⟨?_, fits.2⟩
  rw [List.length_tail]
  exact (Nat.sub_le ..).trans fits.1

theorem answerWith_sustains (verb : Text) (p : State × Answer) : Sustains p.1 (answerWith verb p) := modMgmt_sustains id

theorem runRequest_sustains {verb : String} {lvl : State → Nat} {body : State → State × Answer} {ops : List Text}
    {s u : State} (h : ∀ s, Sustains s (body s).1) (e : runRequest verb lvl body ops s = .next u) : Upkeep [] s [] u := by
  have judged : Sustains (popLine s) (judge (lvl s) body (popLine s)).1 := by
    unfold judge
    split
    · exact (raiseStanding_sustains _).atOnce
    · exact h _
  unfold runRequest at e
  split at e <;> cases e
  · exact ((popLine_sustains s).trans judged).trans (answerWith_sustains _ _) []
  · exact .refl [] s

/-- Whatever the command, the ranges, the latch and the pool stay right. -/
theorem exec_upkeep (i : Instr) {s u : State} (h : exec i s = .next u) : Upkeep [] s [] u := by
  cases i with
  | resetAsserted => cases h; exact resetAsserted_sustains s []
  | resetReleased => cases h; exact pinReset_upkeep s
  | characterArrives l v m => exact runEvent_sustains (characterArrives_sustains s l v m) h
  | breakWatchExpires l => exact runEvent_sustains (breakBegins_sustains s l) h
  | markingIntervalExpires l => exact runBareEvent_sustains (breakEnds_sustains s l) h
  | silenceTimerExpires l => exact runEvent_sustains (lineSilent_sustains s l) h
  | unknownRequest v ops =>
    change execUnknownRequest v ops s = _ at h
    unfold execUnknownRequest at h
    split at h <;> cases h
    · exact (popLine_sustains s).trans (answerWith_sustains v (refuse (popLine s) .form)) []
    · exact .refl [] s
  | line ops => exact runRequest_sustains (lvl := fun _ => 3) (bodyLine_sustains ops) h
  | linebank ops => exact runRequest_sustains (lvl := fun _ => 2) (bodyLinebank_sustains ops) h
  | circuit ops => exact runRequest_sustains (lvl := fun _ => 3) (bodyCircuit_sustains ops) h
  | bankkind ops => exact runRequest_sustains (lvl := fun _ => 3) (bodyBankkind_sustains ops) h
  | bankin ops => exact runRequest_sustains (lvl := fun _ => 3) (bodyBankin_sustains ops) h
  | bankout ops => exact runRequest_sustains (lvl := fun _ => 3) (bodyBankout_sustains ops) h
  | banksub ops => exact runRequest_sustains (lvl := fun _ => 3) (bodyBanksub_sustains ops) h
  | bankshift ops => exact runRequest_sustains (lvl := fun _ => 3) (bodyBankshift_sustains ops) h
  | route ops => exact runRequest_sustains (bodyRoute_sustains ops) h
  | routeoff ops => exact runRequest_sustains (bodyRouteoff_sustains ops) h
  | mark ops => exact runRequest_sustains (fun s => membership_sustains ops s _) h
  | unmark ops => exact runRequest_sustains (fun s => membership_sustains ops s _) h
  | flip ops => exact runRequest_sustains (fun s => membership_sustains ops s _) h
  | test ops => exact runRequest_sustains (lvl := fun _ => 1) (fun s => membership_sustains ops s _) h
  | defaults ops => exact runRequest_sustains (lvl := fun _ => 2) (bodyDefaults_sustains ops) h
  | flashset ops => exact runRequest_sustains (lvl := fun _ => 2) (bodyFlashset_sustains ops) h
  | precedence ops => exact runRequest_sustains (lvl := fun _ => 3) (bodyPrecedence_sustains ops) h
  | queue ops => exact runRequest_sustains (lvl := fun _ => 1) (bodyQueue_sustains ops) h
  | hold ops => exact runRequest_sustains (lvl := fun _ => 1) (bodyHold_sustains ops) h
  | unhold ops => exact runRequest_sustains (lvl := fun _ => 1) (bodyUnhold_sustains ops) h
  | unholdall ops => exact runRequest_sustains (lvl := fun _ => 2) (bodyUnholdall_sustains ops) h
  | repeatTakes ops => exact runRequest_sustains (lvl := fun _ => 1) (bodyRepeat_sustains ops) h
  | withdraw ops => exact runRequest_sustains (lvl := fun _ => 2) (bodyWithdraw_sustains ops) h
  | clearunheld ops => exact runRequest_sustains (lvl := fun _ => 3) (bodyClearunheld_sustains ops) h
  | clearstore ops => exact runRequest_sustains (lvl := fun _ => 3) (bodyClearstore_sustains ops) h
  | takewait ops => exact runRequest_sustains (lvl := fun _ => 3) (bodyTakewait_sustains ops) h
  | story ops => exact runRequest_sustains (lvl := fun _ => 1) (bodyStory_sustains ops) h
  | reportto ops => exact runRequest_sustains (lvl := fun _ => 3) (bodyReportto_sustains ops) h
  | status ops => exact runRequest_sustains (lvl := fun _ => 1) (bodyStatus_sustains ops) h
  | quiet ops => exact runRequest_sustains (lvl := fun _ => 2) (bodyQuiet_sustains ops) h
  | wake ops => exact runRequest_sustains (lvl := fun _ => 2) (bodyWake_sustains ops) h
  | full ops => exact runRequest_sustains (lvl := fun _ => 2) (bodyFull_sustains ops) h
  | reduced ops => exact runRequest_sustains (lvl := fun _ => 2) (bodyReduced_sustains ops) h
  | restart ops => exact runRequest_sustains (lvl := fun _ => 3) (bodyRestart_sustains ops) h
  | events ops => exact runRequest_sustains (lvl := fun _ => 1) (bodyEvents_sustains ops) h
  | clearevent ops => exact runRequest_sustains (lvl := fun _ => 2) (bodyClearevent_sustains ops) h
  | mask ops => exact runRequest_sustains (lvl := fun _ => 2) (bodyMask_sustains ops) h
  | alerts ops => exact runRequest_sustains (lvl := fun _ => 2) (bodyAlerts_sustains ops) h
  | counts ops => exact runRequest_sustains (lvl := fun _ => 1) (bodyCounts_sustains ops) h
  | clearcounts ops => exact runRequest_sustains (lvl := fun _ => 2) (bodyClearcounts_sustains ops) h
  | executionEnds => exact runEvent_upkeep (executionEnds_upkeep s) h
  | waitTimerExpires n t => exact runEvent_sustains (waitExpires_sustains n t s) h
  | secondAgeing => exact runBareEvent_sustains (ageQueues_sustains s) h
  | motorStartTimerExpires c => exact runEvent_sustains (motorReady_sustains c s) h
  | runOnTimerExpires c => exact runBareEvent_sustains (runOnEnds_sustains c s) h
  | characterSent c => exact runEvent_sustains (f := fun t => charSent t c) (charSent_sustains s c) h
  | markToSpaceTransition l => cases h; exact modLine_sustains id id []
  | spaceToMarkTransition l => cases h; exact modLine_sustains id id []
  | falseStart l => exact runBareEvent_sustains (falseStart_sustains s l) h

theorem step_upkeep {s u : State} (h : step s = .next u) : Upkeep [] s [] u := by
  unfold step at h
  split at h
  · cases h
    exact .refl [] s
  · next c rest _ =>
    have taken : Sustains s { s with pending := rest } := SameParts.sustains {}
    exact (taken []).trans (exec_upkeep c h)

/-- Settles O50: every step confines the tables, the counters and the latch, part by part. -/
theorem rangesAndLatchAreKept : Obligations.RangesAndLatchAreKept := by
  unfold Obligations.RangesAndLatchAreKept
  refine ⟨⟨fun s t sound h => ?_, fun s t sound h => ?_⟩, fun s t sound h => ?_⟩
  · obtain ⟨tables, lines, circuits, message⟩ := tablesSound_iff.mp sound
    have kept := step_upkeep h
    exact tablesSound_iff.mpr ⟨kept.tables tables, kept.lines lines, kept.descs circuits, kept.message message⟩
  · obtain ⟨lines, circuits, repeats, takes⟩ := countersSound_iff.mp sound
    have kept := step_upkeep h
    have counters := kept.counters fun c => (circuits c).1
    have ages := (kept.ages ⟨fun c => (circuits c).2, aged_nil⟩).1
    exact countersSound_iff.mpr ⟨kept.lineCounters lines, fun c => ⟨counters c, ages c⟩, kept.repeats repeats, kept.takes takes⟩
  · exact latchSound_iff.mpr ((step_upkeep h).latch (latchSound_iff.mp sound))

/-- Settles O52: with nothing in hand the free records and those on the circuits are 192 after the step as before. -/
theorem thePoolIsConserved : Obligations.ThePoolIsConserved := by
  unfold Obligations.ThePoolIsConserved
  exact fun s t sound h => poolSound_iff.mpr ((step_upkeep h).pool (poolSound_iff.mp sound))

end Sys2Proof.Machine
/-! ## Precedence: break-ins, scores and selections (O27, O28)

R106, R108, R118 to R120. -/

namespace Sys2Proof.Machine

open Sys2Proof

/-! ### Break-ins and scores (R106, R108, R118) -/

theorem breaksInto_iff (opt : Bool) (x y : Class) : breaksInto opt x y = true ↔
    (x = .flash ∧ y ≠ .flash) ∨ (x = .bulletin ∧ (y = .urgent ∨ y = .routine ∨ y = .deferred) ∧ opt = true) := by
  cases x with
  | flash => cases y <;> simp [breaksInto]
  | bulletin => cases y <;> simp [breaksInto]
  | urgent => simp [breaksInto]
  | routine => simp [breaksInto]
  | deferred => simp [breaksInto]

section Scores

variable {p : Vector PrecRow 5} (c : Class) (age : Nat)

theorem score_eq (p : Vector PrecRow 5) : score p c age = min (p[classIdx c].base + age * p[classIdx c].climb / 16)
    (if c = .flash then 255 else p[(0 : Fin 5)].base - 1) := rfl

theorem base_le (range : basesInRange p = true) (i : Fin 5) : p[i].base ≤ 255 := by
  have member : p[i] ∈ p.toList := Vector.mem_toList_iff.mpr (Vector.getElem_mem i.isLt)
  exact of_decide_eq_true (List.all_eq_true.mp range _ member)

/-- R106: a class below FLASH has its base below that of FLASH, which is therefore not 0. -/
theorem flash_base_pos (decrease : basesDecrease p = true) : 0 < p[(0 : Fin 5)].base := by
  simp only [basesDecrease, Bool.and_eq_true, decide_eq_true_eq] at decrease
  obtain ⟨⟨⟨second, -⟩, -⟩, -⟩ := decrease
  exact Nat.zero_lt_of_lt second

theorem score_le (range : basesInRange p = true) : score p c age ≤ 255 := by
  have top := base_le range 0
  rw [score_eq]
  refine (Nat.min_le_right ..).trans ?_
  split
  · exact le_refl 255
  · omega

theorem base_le_score_flash (range : basesInRange p = true) : p[(0 : Fin 5)].base ≤ score p .flash age :=
  Nat.le_min.mpr ⟨Nat.le_add_right .., base_le range 0⟩

theorem score_lt_flash_base {c : Class} (below : c ≠ .flash) (decrease : basesDecrease p = true) :
    score p c age < p[(0 : Fin 5)].base := by
  have capped : score p c age ≤ p[(0 : Fin 5)].base - 1 := by
    rw [score_eq, if_neg below]
    exact Nat.min_le_right ..
  have positive := flash_base_pos decrease
  omega

end Scores

/-- Settles O27: the table of break-ins class by class, and the bounds that the cap puts on a score. -/
theorem classesBreakInAndScore : Obligations.ClassesBreakInAndScore := by
  unfold Obligations.ClassesBreakInAndScore
  refine ⟨breaksInto_iff, fun p c age => ⟨score_eq c age p, fun range decrease => ⟨score_le c age range, ?_, ?_⟩⟩⟩
  · rintro rfl
    exact base_le_score_flash age range
  · exact fun below => score_lt_flash_base age below decrease

/-! ### The best and the worst of a queue (R116, R120) -/

/-- What `highest` and `lowest` have in common: a member is kept unless one nearer to the head is better. -/
def pick {α : Type} (better : Nat → Nat → Bool) (p : α → Bool) (f : α → Nat) : List α → Option (Nat × Nat)
  | [] => none
  | x :: xs =>
    match pick better p f xs with
    | none => if p x then some (0, f x) else none
    | some (j, v) => if p x && better (f x) v then some (0, f x) else some (j + 1, v)

theorem highest_eq_pick {α : Type} (p : α → Bool) (f : α → Nat) (l : List α) :
    highest p f l = pick (fun a b => decide (b ≤ a)) p f l := by
  induction l with
  | nil => rfl
  | cons x xs ih =>
    rw [highest, ih]
    rfl

theorem lowest_eq_pick {α : Type} (p : α → Bool) (f : α → Nat) (l : List α) :
    lowest p f l = pick (fun a b => decide (a < b)) p f l := by
  induction l with
  | nil => rfl
  | cons x xs ih =>
    rw [lowest, ih]
    rfl

/-- The member `r` at `i` satisfies `p`; none nearer to the head is better, and it is better than those nearer to the tail. -/
structure Picked {α : Type} (better : Nat → Nat → Bool) (p : α → Bool) (f : α → Nat) (q : List α) (i : Nat) (r : α) : Prop where
  here : q[i]? = some r
  good : p r = true
  ahead : ∀ (j : Nat) (x : α), j < i → q[j]? = some x → p x = true → better (f x) (f r) = false
  behind : ∀ (j : Nat) (x : α), i < j → q[j]? = some x → p x = true → better (f r) (f x) = true

/-- A comparison of values by which a member is found. -/
structure Ranks (better : Nat → Nat → Bool) : Prop where
  trans : ∀ {a b c}, better a b = true → better b c = true → better a c = true
  beside : ∀ {a b c}, better a b = true → better c b = false → better a c = true

theorem ranks_ge : Ranks fun a b => decide (b ≤ a) where
  trans h g := decide_eq_true ((of_decide_eq_true g).trans (of_decide_eq_true h))
  beside h g := decide_eq_true ((Nat.not_le.mp (of_decide_eq_false g)).le.trans (of_decide_eq_true h))

theorem ranks_lt : Ranks fun a b => decide (a < b) where
  trans h g := decide_eq_true ((of_decide_eq_true h).trans (of_decide_eq_true g))
  beside h g := decide_eq_true ((of_decide_eq_true h).trans_le (Nat.not_lt.mp (of_decide_eq_false g)))

section Pick

variable {α : Type} {better : Nat → Nat → Bool} {p : α → Bool} {f : α → Nat} {q : List α} {i j v : Nat} {r : α}

/-- Nothing is found where nothing qualifies. -/
theorem pick_none_iff : pick better p f q = none ↔ ∀ x ∈ q, p x = false := by
  induction q with
  | nil => simp [pick]
  | cons x xs ih =>
    unfold pick
    rw [List.forall_mem_cons, ← ih]
    cases rest : pick better p f xs with
    | none => cases p x <;> simp
    | some found =>
      dsimp only
      split <;> simp

theorem Picked.unique {r' : α} (h : Picked better p f q i r) (h' : Picked better p f q j r') : i = j := by
  obtain lt | eq | gt := Nat.lt_trichotomy i j
  · exact nomatch (h.behind j r' lt h'.here h'.good).symm.trans (h'.ahead i r lt h.here h.good)
  · exact eq
  · exact nomatch (h'.behind i r gt h.here h.good).symm.trans (h.ahead j r' gt h'.here h'.good)

section Order

variable (ranks : Ranks better)

include ranks

theorem picked_of_pick (found : pick better p f q = some (i, v)) : ∃ r, v = f r ∧ Picked better p f q i r := by
  induction q generalizing i v with
  | nil => cases found
  | cons x xs ih =>
    unfold pick at found
    cases rest : pick better p f xs with
    | none =>
      rw [rest] at found
      dsimp only at found
      split at found
      · next good =>
        cases found
        refine ⟨x, rfl, rfl, good, fun j y lt => absurd lt (Nat.not_lt_zero j), fun j y lt at_ good' => ?_⟩
        obtain ⟨j, rfl⟩ := Nat.exists_eq_succ_of_ne_zero (Nat.ne_of_gt lt)
        exact absurd good' (Bool.eq_false_iff.mp (pick_none_iff.mp rest y (List.mem_of_getElem? at_)))
      · cases found
    | some w =>
      obtain ⟨k, u⟩ := w
      obtain ⟨r, rfl, picked⟩ := ih rest
      rw [rest] at found
      dsimp only at found
      split at found
      · next first =>
        obtain ⟨good, first⟩ := Bool.and_eq_true_iff.mp first
        cases found
        refine ⟨x, rfl, rfl, good, fun j y lt => absurd lt (Nat.not_lt_zero j), fun j y lt at_ good' => ?_⟩
        obtain ⟨j, rfl⟩ := Nat.exists_eq_succ_of_ne_zero (Nat.ne_of_gt lt)
        obtain before | same | after := Nat.lt_trichotomy j k
        · exact ranks.beside first (picked.ahead j y before at_ good')
        · subst same
          exact Option.some.inj (picked.here.symm.trans at_) ▸ first
        · exact ranks.trans first (picked.behind j y after at_ good')
      · next later =>
        cases found
        refine ⟨r, rfl, picked.here, picked.good, fun j y lt at_ good' => ?_, fun j y lt at_ good' => ?_⟩
        · cases j with
          | zero =>
            cases at_
            simpa [good'] using later
          | succ j => exact picked.ahead j y (Nat.lt_of_succ_lt_succ lt) at_ good'
        · obtain ⟨j, rfl⟩ := Nat.exists_eq_succ_of_ne_zero (Nat.ne_of_gt (Nat.zero_lt_of_lt lt))
          exact picked.behind j y (Nat.lt_of_succ_lt_succ lt) at_ good'

theorem Picked.pick (h : Picked better p f q i r) : Sys2Proof.Machine.pick better p f q = some (i, f r) := by
  cases found : Sys2Proof.Machine.pick better p f q with
  | none => exact absurd h.good (Bool.eq_false_iff.mp (pick_none_iff.mp found r (List.mem_of_getElem? h.here)))
  | some w =>
    obtain ⟨j, v⟩ := w
    obtain ⟨r', rfl, picked⟩ := picked_of_pick ranks found
    obtain rfl := picked.unique h
    rw [Option.some.inj (picked.here.symm.trans h.here)]

end Order

end Pick

section Queue

variable {p : Rec → Bool} {f : Rec → Nat} {q : List Rec} {i : Nat}

theorem highest_none (none : ∀ x ∈ q, p x = false) : highest p f q = .none :=
  (highest_eq_pick p f q).trans (pick_none_iff.mpr none)

theorem lowest_none (none : ∀ x ∈ q, p x = false) : lowest p f q = .none :=
  (lowest_eq_pick p f q).trans (pick_none_iff.mpr none)

theorem highest_of_isBest (best : IsBest p f q i) : ∃ r, q[i]? = some r ∧ highest p f q = some (i, f r) := by
  obtain ⟨r, here, good, above, ahead⟩ := best
  have picked : Picked (fun a b => decide (b ≤ a)) p f q i r :=
    ⟨here, good, fun j x lt at_ good' => decide_eq_false (Nat.not_le.mpr (ahead j x lt at_ good')),
      fun j x _ at_ good' => decide_eq_true (above j x at_ good')⟩
  exact ⟨r, here, (highest_eq_pick p f q).trans (picked.pick ranks_ge)⟩

theorem highest_found {v : Nat} (found : highest p f q = some (i, v)) : ∃ r ∈ q, p r = true ∧ v = f r := by
  rw [highest_eq_pick] at found
  obtain ⟨r, value, picked⟩ := picked_of_pick ranks_ge found
  exact ⟨r, List.mem_of_getElem? picked.here, picked.good, value⟩

theorem lowest_of_isWorst (worst : IsWorst p f q i) : ∃ r, q[i]? = some r ∧ lowest p f q = some (i, f r) := by
  obtain ⟨r, here, good, below, behind⟩ := worst
  have picked : Picked (fun a b => decide (a < b)) p f q i r :=
    ⟨here, good, fun j x _ at_ good' => decide_eq_false (Nat.not_lt.mpr (below j x at_ good')),
      fun j x lt at_ good' => decide_eq_true (behind j x lt at_ good')⟩
  exact ⟨r, here, (lowest_eq_pick p f q).trans (picked.pick ranks_lt)⟩

end Queue

/-! ### A selection (R119, R120) -/

section Selection

variable {s : State} {c : CircuitNo}

theorem breakerFor_of_isBest {y : Class} {i : Nat} (best : IsBest (isBreaker s c y) (scoreOf s) s.circuits[c].queue i) :
    breakerFor s c y = some i := by
  obtain ⟨r, -, found⟩ := highest_of_isBest best
  exact congrArg (Option.map Prod.fst) found

theorem breakerFor_none {y : Class} (none : ∀ r ∈ s.circuits[c].queue, isBreaker s c y r = false) :
    breakerFor s c y = .none :=
  congrArg (Option.map Prod.fst) (highest_none none)

/-- R120, the first two steps: a circuit with no suspended record to break into or to resume goes on to its queue. -/
theorem choose_eq_belowChain (below : s.circuits[c].sender.chain = [] ∨ ∃ t, s.circuits[c].sender.chain.getLast? = some t ∧
    (∀ r ∈ s.circuits[c].queue, isBreaker s c t.cls r = false) ∧ degreeOf s c ≠ .notWithheld) :
    choose s c = selectBelowChain s c := by
  obtain empty | ⟨t, top, none, withheld⟩ := below
  · simp only [choose, empty, List.getLast?_nil]
  · simp only [choose, top, breakerFor_none none, if_neg withheld]

/-- The reports claim the circuit before the queue. -/
theorem selectBelowChain_report (reporter : s.mgmt.reportCircuit = c) (reports : s.mgmt.reports ≠ [])
    (low : ∀ r ∈ s.circuits[c].queue, isEligible s c r = true → scoreOf s r < 200) : selectBelowChain s c = .report := by
  unfold selectBelowChain
  cases best : highest (isEligible s c) (scoreOf s) s.circuits[c].queue with
  | none => exact if_pos ⟨reporter, reports, rfl⟩
  | some w =>
    obtain ⟨i, v⟩ := w
    obtain ⟨r, queued, good, rfl⟩ := highest_found best
    have unclaimed : ¬ Config.reportClaim ≤ scoreOf s r := Nat.not_le.mpr (low r queued good)
    exact if_pos ⟨reporter, reports, decide_eq_false unclaimed⟩

/-- The best eligible record is started where no report claims the circuit before it. -/
theorem selectBelowChain_start {i : Nat}
    (claimed : s.mgmt.reportCircuit ≠ c ∨ s.mgmt.reports = [] ∨
      ∃ r ∈ s.circuits[c].queue, isEligible s c r = true ∧ 200 ≤ scoreOf s r)
    (best : IsBest (isEligible s c) (scoreOf s) s.circuits[c].queue i) : selectBelowChain s c = .start i := by
  obtain ⟨r, queued, found⟩ := highest_of_isBest best
  obtain ⟨r', queued', -, above, -⟩ := best
  obtain rfl := Option.some.inj (queued.symm.trans queued')
  unfold selectBelowChain
  rw [found]
  refine if_neg fun ⟨reporter, reports, unclaimed⟩ => ?_
  obtain other | none | ⟨x, mem, good, high⟩ := claimed
  · exact other reporter
  · exact reports none
  · obtain ⟨j, at_⟩ := List.mem_iff_getElem?.mp mem
    exact of_decide_eq_false unclaimed (high.trans (above j x at_ good))

theorem selectBelowChain_nothing (unclaimed : s.mgmt.reportCircuit ≠ c ∨ s.mgmt.reports = [])
    (none : ∀ r ∈ s.circuits[c].queue, isEligible s c r = false) : selectBelowChain s c = .nothing := by
  unfold selectBelowChain
  rw [highest_none none]
  exact if_neg fun ⟨reporter, reports, _⟩ => unclaimed.elim (· reporter) reports

end Selection

/-- Settles O28: the steps of R120 in order, each by what `highest` finds in the queue. -/
theorem selectionTakesTheFirstStep : Obligations.SelectionTakesTheFirstStep := by
  unfold Obligations.SelectionTakesTheFirstStep
  rintro s c q rfl
  refine ⟨fun t i top best => ?_, fun t top none free => ?_, fun below => ?_⟩
  · simp only [choose, top, breakerFor_of_isBest best]
  · simp only [choose, top, breakerFor_none none, if_pos free]
  · rw [choose_eq_belowChain below]
    exact ⟨selectBelowChain_report, fun i => selectBelowChain_start, selectBelowChain_nothing⟩

end Sys2Proof.Machine
/-! ## The precedence table, the take wait limit, and the requests that read (O30, O31)

R89, R90, R107, R125, R126, R189, R190, R203. -/

namespace Sys2Proof.Machine

open Sys2Proof

/-! ### PRECEDENCE and TAKEWAIT (R89, R107) -/

theorem forms_of_map {α β : Type} {f : α → Option β} {xs : List α} {ys : List β} (h : xs.map f = ys.map some) :
    forms f xs = some ys := by
  induction xs generalizing ys with
  | nil =>
    cases ys with
    | nil => rfl
    | cons y ys => cases h
  | cons x xs ih =>
    cases ys with
    | nil => cases h
    | cons y ys =>
      obtain ⟨first, rest⟩ := List.cons.inj h
      simp only [forms, first, ih rest]

section PrecedenceTable

variable {s : State} {ops : List Text}

theorem bodyPrecedence_read : bodyPrecedence [] s = done s (precedenceToks s.precedence) := rfl

theorem bodyPrecedence_form (typed : ops ≠ []) (form : ops.length ≠ 10 ∨ ∃ t ∈ ops, number? t = none) :
    bodyPrecedence ops s = refuse s .form := by
  simp only [bodyPrecedence, if_neg typed]
  split
  · next formed =>
    exfalso
    obtain length | ⟨t, mem, none⟩ := form
    · exact length (forms_length formed).symm
    · rw [forms_none mem none] at formed
      cases formed
  · rfl

variable {b0 c0 b1 c1 b2 c2 b3 c3 b4 c4 : Nat}

/-- R107: the bases are in range and decrease. -/
theorem bases_inOrder_iff :
    (basesInRange #v[⟨b0, c0⟩, ⟨b1, c1⟩, ⟨b2, c2⟩, ⟨b3, c3⟩, ⟨b4, c4⟩] &&
      basesDecrease #v[⟨b0, c0⟩, ⟨b1, c1⟩, ⟨b2, c2⟩, ⟨b3, c3⟩, ⟨b4, c4⟩]) = true ↔
    b0 ≤ 255 ∧ b1 < b0 ∧ b2 < b1 ∧ b3 < b2 ∧ b4 < b3 := by
  have range : basesInRange #v[⟨b0, c0⟩, ⟨b1, c1⟩, ⟨b2, c2⟩, ⟨b3, c3⟩, ⟨b4, c4⟩] = (decide (b0 ≤ 255) &&
      (decide (b1 ≤ 255) && (decide (b2 ≤ 255) && (decide (b3 ≤ 255) && (decide (b4 ≤ 255) && true))))) := rfl
  have decrease : basesDecrease #v[⟨b0, c0⟩, ⟨b1, c1⟩, ⟨b2, c2⟩, ⟨b3, c3⟩, ⟨b4, c4⟩] =
      (decide (b1 < b0) && decide (b2 < b1) && decide (b3 < b2) && decide (b4 < b3)) := rfl
  rw [range, decrease]
  simp only [Bool.and_eq_true, decide_eq_true_eq, and_true]
  omega

section Typed

variable (typed : ops.map number? =
  [some b0, some c0, some b1, some c1, some b2, some c2, some b3, some c3, some b4, some c4])

include typed

theorem bodyPrecedence_typed : bodyPrecedence ops s =
    if basesInRange #v[⟨b0, min c0 15⟩, ⟨b1, min c1 15⟩, ⟨b2, min c2 15⟩, ⟨b3, min c3 15⟩, ⟨b4, min c4 15⟩] &&
        basesDecrease #v[⟨b0, min c0 15⟩, ⟨b1, min c1 15⟩, ⟨b2, min c2 15⟩, ⟨b3, min c3 15⟩, ⟨b4, min c4 15⟩] then
      done { s with precedence :=
        #v[⟨b0, min c0 15⟩, ⟨b1, min c1 15⟩, ⟨b2, min c2 15⟩, ⟨b3, min c3 15⟩, ⟨b4, min c4 15⟩] }
        ([b0, min c0 15, b1, min c1 15, b2, min c2 15, b3, min c3 15, b4, min c4 15].map decimal)
    else refuse s .range := by
  have some : ops ≠ [] := by
    rintro rfl
    cases typed
  have formed : forms number? ops = .some [b0, c0, b1, c1, b2, c2, b3, c3, b4, c4] := forms_of_map typed
  simp only [bodyPrecedence, if_neg some, formed]
  rfl

theorem bodyPrecedence_range (range : 255 < b0 ∨ b0 ≤ b1 ∨ b1 ≤ b2 ∨ b2 ≤ b3 ∨ b3 ≤ b4) :
    bodyPrecedence ops s = refuse s .range := by
  rw [bodyPrecedence_typed typed, if_neg]
  rw [bases_inOrder_iff]
  omega

theorem bodyPrecedence_done (top : b0 ≤ 255) (h1 : b1 < b0) (h2 : b2 < b1) (h3 : b3 < b2) (h4 : b4 < b3) :
    bodyPrecedence ops s = done { s with precedence :=
        #v[⟨b0, min c0 15⟩, ⟨b1, min c1 15⟩, ⟨b2, min c2 15⟩, ⟨b3, min c3 15⟩, ⟨b4, min c4 15⟩] }
      ([b0, min c0 15, b1, min c1 15, b2, min c2 15, b3, min c3 15, b4, min c4 15].map decimal) := by
  rw [bodyPrecedence_typed typed, if_pos]
  exact bases_inOrder_iff.mpr ⟨top, h1, h2, h3, h4⟩

end Typed

end PrecedenceTable

section TakeWait

variable {s : State} {t : Text}

theorem bodyTakewait_form (form : number? t = none) : bodyTakewait [t] s = refuse s .form := by
  simp only [bodyTakewait, form]

theorem bodyTakewait_done {n : Nat} (form : number? t = some n) :
    bodyTakewait [t] s = done { s with takeWait := min n 255 } [decimal (min n 255)] := by
  simp only [bodyTakewait, form]

end TakeWait

/-- Settles O30: what each body answers, by the form and the order of its operands. -/
theorem precedenceAndTakeWaitAreSet : Obligations.PrecedenceAndTakeWaitAreSet := by
  unfold Obligations.PrecedenceAndTakeWaitAreSet
  refine fun s => ⟨fun turn => ?_, fun ops some turn => ⟨fun form => ?_, ?_⟩, fun t turn => ⟨fun form => ?_, fun n form => ?_⟩⟩
  · exact runRequest_done turn (bodyPrecedence_read (s := popLine s))
  · exact runRequest_refused turn (bodyPrecedence_form some form)
  · intro b0 c0 b1 c1 b2 c2 b3 c3 b4 c4 typed
    refine ⟨fun range => runRequest_refused turn (bodyPrecedence_range typed range), fun top h1 h2 h3 h4 => ?_⟩
    exact runRequest_done turn (bodyPrecedence_done (s := popLine s) typed top h1 h2 h3 h4)
  · exact runRequest_refused turn (bodyTakewait_form form)
  · exact runRequest_done turn (bodyTakewait_done (s := popLine s) form)

/-! ### QUEUE, STORY, COUNTS, STATUS and CLEARCOUNTS (R90, R125, R126, R189, R190, R203) -/

/-- The letter of a lettered number says which of two forms it has. -/
theorem lettered2_other {a b : Char} (other : ch a ≠ ch b) {t : Text} {n : Nat} (form : lettered2 a t = some n) :
    lettered2 b t = none := by
  cases t with
  | nil => rfl
  | cons h ds =>
    simp only [lettered2] at form ⊢
    split at form
    · next first => exact if_neg fun second => other (first.1.symm.trans second.1)
    · cases form

section Reads

variable {s : State} {t : Text}

theorem bodyQueue_done {c : CircuitNo} (form : circuitForm t = some c.val) : bodyQueue [t] s =
    done s ([circuitTok c, decimal s.circuits[c].queue.length, decimal s.freeCount] ++
      (s.circuits[c].queue.take 16).map (recordTok s)) := by
  simp only [bodyQueue, form, below_val]
  rfl

theorem bodyStory_absent {k : Key} (form : keyForm t = some k) (missing : lookup s k = none) :
    bodyStory [t] s = refuse s .absent := withStory_absent form missing

theorem bodyStory_done {k : Key} {n : SlotNo} (form : keyForm t = some k) (found : lookup s k = some n) :
    bodyStory [t] s = done s (storyToks n s.slots[n]) := withStory_found form found

theorem bodyCounts_line {l : LineNo} (form : lineForm t = some l.val) :
    bodyCounts [t] s = done s (lineTok l :: lineCounts s.lines[l].counters) := by
  simp only [bodyCounts, form, below_val]

theorem bodyCounts_circuit {c : CircuitNo} (form : circuitForm t = some c.val) :
    bodyCounts [t] s = done s (circuitTok c :: circuitCounts s.circuits[c].sender) := by
  have noLine : lineForm t = none := lettered2_other (by decide) form
  simp only [bodyCounts, noLine, form, below_val]

theorem bodyStatus_done : bodyStatus [] s = done s (statusToks s) := rfl

theorem bodyClearcounts_done : bodyClearcounts [] s = done (zeroCounters s) [] := rfl

end Reads

/-- Settles O31: what each body answers, and that the state is the one it was given but for the counters that CLEARCOUNTS
clears. -/
theorem readsAndCounters : Obligations.ReadsAndCounters := by
  unfold Obligations.ReadsAndCounters
  refine ⟨fun s => ⟨fun t c form turn => ?_, fun t k form turn => ⟨fun missing => ?_, fun n found => ?_⟩,
    fun t l form turn => ?_, fun t c form turn => ?_, fun turn => ?_⟩, fun s turn => ?_⟩
  · exact runRequest_done turn (bodyQueue_done (s := popLine s) form)
  · exact runRequest_refused turn (bodyStory_absent (s := popLine s) form missing)
  · exact runRequest_done turn (bodyStory_done (s := popLine s) form found)
  · rintro _ rfl
    exact runRequest_done turn (bodyCounts_line (s := popLine s) form)
  · rintro _ rfl
    exact runRequest_done turn (bodyCounts_circuit (s := popLine s) form)
  · rintro _ rfl _ rfl
    exact runRequest_done turn (bodyStatus_done (s := popLine s))
  · exact runRequest_done turn (bodyClearcounts_done (s := popLine s))

end Sys2Proof.Machine
/-! ## Records made (O29)

R113, R115 to R117: the turns of a making, with the pool empty and with a return between two turns. -/

namespace Sys2Proof.Machine

open Sys2Proof

/-! ### What an offer of work moves (R133, R136) -/

/-- A circuit that has been offered work: its records may have moved, and nothing is counted missed. -/
structure Circuit.Moves (x y : Circuit) : Prop where
  missed : y.sender.missed = x.sender.missed
  records : x.Idle → ∀ p, recordsOn p y = recordsOn p x
  idle : x.Idle → y.Idle

theorem Circuit.Moves.refl (x : Circuit) : x.Moves x := ⟨rfl, fun _ _ => rfl, id⟩

theorem Circuit.Moves.trans {x y z : Circuit} (h : x.Moves y) (g : y.Moves z) : x.Moves z :=
  ⟨g.missed.trans h.missed, fun idle p => (g.records (h.idle idle) p).trans (h.records idle p), g.idle ∘ h.idle⟩

theorem Offered.missed {m : State} {c : CircuitNo} {x y : Circuit} (offered : Offered m c x y) :
    y.sender.missed = x.sender.missed := by
  cases state : x.sender.state with
  | stopped =>
    simp only [Offered, state] at offered
    split at offered
    · unfold Started at offered
      split at offered
      · exact offered.counters.2.1
      · rw [offered]
    · rw [offered]
  | pausing =>
    simp only [Offered, state] at offered
    split at offered
    · exact offered.counters.2.1
    · rw [offered]
  | starting => simp only [Offered, state] at offered; rw [offered]
  | carrying => simp only [Offered, state] at offered; rw [offered]
  | closing => simp only [Offered, state] at offered; rw [offered]

theorem Offered.moves {m : State} {c : CircuitNo} {x y : Circuit} (offered : Offered m c x y) : x.Moves y :=
  ⟨offered.missed, fun idle => offered.recordsOn idle, (offered.exchanges []).idle⟩

theorem offer_moves (s : State) (c d : CircuitNo) : s.circuits[d].Moves (offer s c).circuits[d] := by
  by_cases e : d = c
  · subst e
    exact (offer_offered s d).moves
  · rw [(offer_only s c).other e]
    exact .refl _

theorem alertDue_moves (s : State) (k : EventKind) (d : CircuitNo) : s.circuits[d].Moves (alertDue s k).circuits[d] := by
  unfold alertDue
  split
  · exact offer_moves (modMgmt s _) _ d
  · exact .refl _

theorem raise_moves (s : State) (k : EventKind) (e : Detail) (d : CircuitNo) :
    s.circuits[d].Moves (raise s k e).circuits[d] := by
  unfold raise
  dsimp only
  split
  · exact .refl _
  · split
    · exact alertDue_moves (modEntry s k _) k d
    · exact .refl _

theorem tellJoined_moves (s : State) (c : CircuitNo) (x : Class) : s.circuits[c].Moves (tellJoined s c x).circuits[c] := by
  unfold tellJoined
  split
  · unfold breakIfPending
    split
    · split
      · rw [modSender_circuit]
        exact ⟨rfl, fun _ _ => rfl, id⟩
      · exact .refl _
    · exact .refl _
  · exact offer_moves s c c

section Joining

variable (s : State) (c : CircuitNo) (r : Rec)

theorem joinQueue_moves :
    { s.circuits[c] with queue := s.circuits[c].queue ++ [r] : Circuit }.Moves (joinQueue s c r).circuits[c] := by
  have told := tellJoined_moves (modQueue s c fun q => q ++ [r]) c r.cls
  rw [modQueue_circuit] at told
  exact told

theorem joinQueue_missed : (joinQueue s c r).circuits[c].sender.missed = s.circuits[c].sender.missed :=
  (joinQueue_moves s c r).missed

theorem joinQueue_records {s : State} {c : CircuitNo} (idle : s.circuits[c].Idle) (r : Rec) (p : Rec → Bool) :
    recordsOn p (joinQueue s c r).circuits[c] = recordsOn p s.circuits[c] + if p r then 1 else 0 :=
  ((joinQueue_moves s c r).records idle p).trans (recordsOn_concat p r _)

end Joining

/-! ### A turn that finds the pool empty (R115, R116) -/

theorem displaceable_eq : displaceable = fun x => decide (x.cls = .routine ∨ x.cls = .deferred) := by
  funext x
  exact (Bool.decide_or ..).symm

section Empty

variable {s : State} {c : CircuitNo} {n : SlotNo} {r : Rec}

theorem turnFor_miss (empty : s.freeCount = 0)
    (none : r.cls ≠ .flash ∨ ∀ x ∈ s.circuits[c].queue, x.cls ≠ .routine ∧ x.cls ≠ .deferred) :
    turnFor n r s c = miss s c := by
  have full : ¬ 0 < s.freeCount := Nat.not_lt.mpr empty.le
  unfold turnFor
  rw [if_neg full]
  split
  · next flash =>
    obtain low | none := none
    · exact absurd flash low
    · have nothing : lowest displaceable (scoreOf s) s.circuits[c].queue = .none := by
        refine lowest_none fun x mem => ?_
        rw [displaceable_eq]
        exact decide_eq_false fun either => either.elim (none x mem).1 (none x mem).2
      rw [nothing]
  · rfl

theorem turnFor_displaceAt {i : Nat} {old : Rec} (empty : s.freeCount = 0) (flash : r.cls = .flash)
    (worst : IsWorst (fun x => decide (x.cls = .routine ∨ x.cls = .deferred)) (scoreOf s) s.circuits[c].queue i)
    (queued : s.circuits[c].queue[i]? = some old) : turnFor n r s c = displaceAt s c i old n r := by
  have full : ¬ 0 < s.freeCount := Nat.not_lt.mpr empty.le
  obtain ⟨x, -, found⟩ := lowest_of_isWorst worst
  rw [← displaceable_eq] at found
  simp only [turnFor, if_neg full, if_pos flash, found, queued]

theorem countMissed_circuit (s : State) (c : CircuitNo) : (countMissed s c).circuits[c] = { s.circuits[c] with
    sender := { s.circuits[c].sender with missed := min (s.circuits[c].sender.missed + 1) 65535 } } :=
  modSender_circuit s c _

theorem miss_missed (s : State) (c : CircuitNo) :
    (miss s c).circuits[c].sender.missed = min (s.circuits[c].sender.missed + 1) 65535 := by
  have raised := (raise_moves (countMissed s c) .poolEmpty (.circuit c) c).missed
  rw [countMissed_circuit] at raised
  exact raised

theorem miss_occurred (s : State) (c : CircuitNo) : Occurred .poolEmpty (.circuit c) s (miss s c) :=
  (raise_occurred (countMissed s c) .poolEmpty (.circuit c)).congr rfl rfl

end Empty

/-! ### A record displaced (R116) -/

section Displaced

variable {s : State} {c : CircuitNo} {i : Nat} {old r : Rec} {n : SlotNo}

/-- The state in which the displaced record has been counted missed. -/
def displacedMissed (s : State) (c : CircuitNo) (i : Nat) (old : Rec) : State :=
  raiseMissed (countMissed (unnameIn (modQueue s c fun q => withoutAt q i) old.ref) c) c (keyOfRecord s old)

theorem displaceAt_eq (s : State) (c : CircuitNo) (i : Nat) (old : Rec) (n : SlotNo) (r : Rec) :
    displaceAt s c i old n r = joinQueue (addPending (displacedMissed s c i old) n) c r := rfl

theorem raiseMissed_moves (s : State) (c d : CircuitNo) (k : Option Key) :
    s.circuits[d].Moves (raiseMissed s c k).circuits[d] := by
  cases k with
  | none => exact .refl _
  | some k => exact raise_moves s _ _ d

theorem displacedMissed_moves (s : State) (c : CircuitNo) (i : Nat) (old : Rec) :
    { s.circuits[c] with
      queue := withoutAt s.circuits[c].queue i
      sender := { s.circuits[c].sender with missed := min (s.circuits[c].sender.missed + 1) 65535 } : Circuit }.Moves
      (displacedMissed s c i old).circuits[c] := by
  have moved := raiseMissed_moves (countMissed (unnameIn (modQueue s c fun q => withoutAt q i) old.ref) c) c c (keyOfRecord s old)
  rw [countMissed_circuit, unnameIn_circuits, modQueue_circuit] at moved
  exact moved

/-- The circuit without its queued record at `i`. -/
def Circuit.unqueued (i : Nat) (x : Circuit) : Circuit := { x with queue := withoutAt x.queue i }

theorem recordsOn_unqueued {x : Circuit} (p : Rec → Bool) (queued : x.queue[i]? = some old) :
    recordsOn p (x.unqueued i) + (if p old then 1 else 0) = recordsOn p x := by
  obtain ⟨bound, rfl⟩ := List.getElem?_eq_some_iff.mp queued
  have split := ((List.getElem_cons_eraseIdx_perm bound).filter p).length_eq
  rw [length_filter_cons] at split
  simp only [recordsOn, Circuit.unqueued, withoutAt]
  omega

theorem displaceAt_records (idle : s.circuits[c].Idle) (queued : s.circuits[c].queue[i]? = some old) (p : Rec → Bool) :
    recordsOn p (displaceAt s c i old n r).circuits[c] + (if p old then 1 else 0) =
      recordsOn p s.circuits[c] + if p r then 1 else 0 := by
  have moved := displacedMissed_moves s c i old
  have joined : recordsOn p (displaceAt s c i old n r).circuits[c] =
      recordsOn p (displacedMissed s c i old).circuits[c] + if p r then 1 else 0 :=
    joinQueue_records (s := addPending (displacedMissed s c i old) n) (moved.idle idle) r p
  have left := recordsOn_unqueued p queued
  have kept : recordsOn p (displacedMissed s c i old).circuits[c] =
      recordsOn p (s.circuits[c].unqueued i) := moved.records idle p
  omega

theorem displaceAt_missed (s : State) (c : CircuitNo) (i : Nat) (old : Rec) (n : SlotNo) (r : Rec) :
    (displaceAt s c i old n r).circuits[c].sender.missed = min (s.circuits[c].sender.missed + 1) 65535 :=
  (joinQueue_missed _ c r).trans (displacedMissed_moves s c i old).missed

theorem unnameIn_slots (s : State) (ref : Option RecRef) : (unnameIn s ref).slots = match ref with
    | some f => modAt s.slots f.slot fun x => unname x f
    | none => s.slots := by
  cases ref <;> rfl

theorem unnameIn_freeCount (s : State) (ref : Option RecRef) : (unnameIn s ref).freeCount = s.freeCount := by
  cases ref <;> rfl

theorem unnameIn_latch (s : State) (ref : Option RecRef) : (unnameIn s ref).latch = s.latch := by
  cases ref <;> rfl

theorem unnameIn_meanwhile (s : State) (ref : Option RecRef) : (unnameIn s ref).meanwhile = s.meanwhile := by
  cases ref <;> rfl

theorem displaceAt_slots (s : State) (c : CircuitNo) (i : Nat) (old : Rec) (n : SlotNo) (r : Rec) :
    (displaceAt s c i old n r).slots = modAt (match old.ref with
      | some f => modAt s.slots f.slot fun x => unname x f
      | none => s.slots) n fun x => { x with pendingCount := x.pendingCount + 1 } := by
  have missed : (displacedMissed s c i old).slots = (unnameIn (modQueue s c fun q => withoutAt q i) old.ref).slots :=
    (raiseMissed_report _ c _).slots
  rw [unnameIn_slots] at missed
  have joined : (displaceAt s c i old n r).slots = (addPending (displacedMissed s c i old) n).slots :=
    (joinQueue_only _ c r).slots
  rw [joined]
  exact congrArg (fun v => modAt v n fun x => { x with pendingCount := x.pendingCount + 1 }) missed

theorem displaceAt_freeCount (s : State) (c : CircuitNo) (i : Nat) (old : Rec) (n : SlotNo) (r : Rec) :
    (displaceAt s c i old n r).freeCount = s.freeCount := by
  rw [displaceAt_eq, (joinQueue_only _ c r).freeCount, addPending_freeCount, displacedMissed,
    (raiseMissed_report _ c _).freeCount, countMissed_freeCount, unnameIn_freeCount, modQueue_freeCount]

theorem keyOfRecord_named {f : RecRef} (ref : old.ref = some f) : keyOfRecord s old = s.slots[f.slot].key := by
  simp only [keyOfRecord, ref, Option.bind_some]

theorem displacedMissed_occurred {y : Key} (named : keyOfRecord s old = some y) :
    Occurred .deliveryMissed (.circuitKey c y) s (displacedMissed s c i old) := by
  simp only [displacedMissed, named, raiseMissed]
  refine raise_occurred_of_latch ?_ _ _
  rw [countMissed_latch, unnameIn_latch, modQueue_latch]

/-- R116: the displaced record is told with its story. -/
theorem displaceAt_occurred {f : RecRef} {y : Key} (ref : old.ref = some f) (key : s.slots[f.slot].key = some y) :
    Occurred .deliveryMissed (.circuitKey c y) s (displaceAt s c i old n r) := by
  have told := displacedMissed_occurred (c := c) (i := i) ((keyOfRecord_named ref).trans key)
  have joined := (joinQueue_only (addPending (displacedMissed s c i old) n) c r).latch
  rw [addPending_latch] at joined
  rw [displaceAt_eq]
  exact told.congr rfl (occurrence_of_latch joined _)

end Displaced

/-! ### A delivery that finishes between two turns (R117, R143) -/

theorem OnlyCircuit.meanwhile {c : CircuitNo} {s t : State} (h : OnlyCircuit c s t) : t.meanwhile = s.meanwhile := by
  unfold OnlyCircuit at h
  rw [h]
  rfl

theorem select_completed (s : State) (c : CircuitNo) :
    (select s c).circuits[c].sender.completed = s.circuits[c].sender.completed := by
  cases work : hasWork s c with
  | true => exact (select_begun work).counters.1
  | false =>
    have chosen : choose s c = .nothing := by simpa [hasWork] using work
    simp only [select, chosen]
    split
    · rfl
    · unfold enterPausing
      dsimp only
      split
      · rw [modSender_circuit]
        rfl
      · rw [modSender_circuit]
        rfl

/-- A delivery has finished on circuit `d`, and its record has returned to the pool. -/
structure Finished (d : CircuitNo) (s t : State) : Prop where
  freeCount : t.freeCount = s.freeCount + 1
  completed : t.circuits[d].sender.completed = min (s.circuits[d].sender.completed + 1) 65535
  others : ∀ c : CircuitNo, c ≠ d → t.circuits[c] = s.circuits[c]
  latch : t.latch = s.latch
  meanwhile : t.meanwhile = s.meanwhile

theorem finishDelivery_finished (s : State) (d : CircuitNo) (r : Rec) : Finished d s (finishDelivery s d r) := by
  let f : Sender → Sender := fun x => { x.bare with completed := count x.completed }
  let w := returnRecord (modSender s d f) r
  have circuits : w.circuits = (modSender s d f).circuits := returnRecord_circuits _ r
  have only : OnlyCircuit d w (finishDelivery s d r) := select_only w d
  refine ⟨?_, ?_, fun c e => ?_, ?_, ?_⟩
  · exact only.freeCount.trans (unnameIn_freeCount _ r.ref)
  · refine (select_completed w d).trans ?_
    rw [circuits, modSender_circuit]
    rfl
  · rw [only.other e, circuits]
    exact modAt_other _ _ e
  · exact only.latch.trans (unnameIn_latch _ r.ref)
  · exact only.meanwhile.trans (unnameIn_meanwhile _ r.ref)

theorem settlePhase_trailer {x : Sender} (phase : x.phase = .trailer) (v : Version) : settlePhase v x = x := by
  simp [settlePhase, phase]

/-- R143: the last character of the trailer has been sent. -/
theorem charSent_finished {s : State} {d : CircuitNo} {g : Sending} {x : Rec} {f : RecRef}
    (sending : s.circuits[d].sender.sending = some g) (carried : s.circuits[d].sender.carried = .record x)
    (ref : x.ref = some f) (phase : s.circuits[d].sender.phase = .trailer) (tail : s.circuits[d].sender.tail = []) :
    Finished d s (charSent s d) := by
  let a := modSender s d (afterSent g)
  have sender : a.circuits[d].sender = afterSent g s.circuits[d].sender := congrArg Circuit.sender (modSender_circuit s d _)
  have still : a.circuits[d].sender.carried = .record x := by rw [sender]; exact carried
  have trailer : a.circuits[d].sender.phase = .trailer := by rw [sender]; exact phase
  have sent : a.circuits[d].sender.tail = [] := by rw [sender]; exact tail
  have named : x.ref ≠ none := by rw [ref]; exact nofun
  have ended : deliveryFinished a.circuits[d].sender = true := by rw [deliveryFinished, trailer, sent]; rfl
  have eq : charSent s d = finishDelivery (modSender a d fun _ => a.circuits[d].sender) d x := by
    have uncut : a.circuits[d].sender.phase ≠ .cut := by rw [trailer]; decide
    have taken : charSent s d = recordSent a d x g.phase := by simp only [charSent, sending, a, still]
    rw [taken]
    simp only [recordSent, if_neg uncut, if_neg named, settlePhase_trailer trailer, ended, if_true]
  have same : (modSender a d fun _ => a.circuits[d].sender) = a := by
    unfold modSender modCircuit
    rw [modAt_id _ _ _ rfl]
  rw [eq, same]
  have finished := finishDelivery_finished a d x
  refine ⟨finished.freeCount, ?_, fun c e => ?_, finished.latch, finished.meanwhile⟩
  · rw [finished.completed, sender]
    rfl
  · rw [finished.others c e]
    exact modAt_other _ _ e

theorem takenBeforeTurn_freed {s : State} {d : CircuitNo} (freed : s.freeCount < (charSent s d).freeCount) :
    takenBeforeTurn s (.characterSent d) = charSent s d := by
  have taken : freedOrStarted s (charSent s d) d = true := by simp [freedOrStarted, freed]
  simp only [takenBeforeTurn, taken, if_true]

/-- With the alert mode OFF a miss is counted and latched, and nothing else. -/
theorem miss_quiet {s : State} (quiet : s.latch.alertMode = false) (c : CircuitNo) :
    ∃ f, miss s c = modEntry (countMissed s c) .poolEmpty f := raise_quiet (s := countMissed s c) quiet _ _

/-! ### The clauses -/

theorem makeRecords_one {s : State} (nothing : s.meanwhile = []) (c : CircuitNo) (n : SlotNo) (r : Rec) :
    makeRecords s [c] n r = turnFor n r s c := makeTurn_none n r s c nothing

/-- R116: a making that displaces a record. -/
theorem displaced_making {s : State} {c : CircuitNo} {i : Nat} {old r : Rec} {n : SlotNo} (idle : s.circuits[c].Idle)
    (flash : r.cls = .flash) (queued : s.circuits[c].queue[i]? = some old)
    (low : old.cls = .routine ∨ old.cls = .deferred) :
    recordsOn (fun x => decide (x = old)) (displaceAt s c i old n r).circuits[c] + 1 =
        recordsOn (fun x => decide (x = old)) s.circuits[c] ∧
      recordsOn (fun x => decide (x = r)) (displaceAt s c i old n r).circuits[c] =
        recordsOn (fun x => decide (x = r)) s.circuits[c] + 1 := by
  have other : old ≠ r := by
    rintro rfl
    rw [flash] at low
    obtain low | low := low <;> cases low
  have gone := displaceAt_records (n := n) (r := r) idle queued fun x => decide (x = old)
  have new := displaceAt_records (n := n) (r := r) idle queued fun x => decide (x = r)
  simp only [decide_eq_true_eq, if_true, if_neg other, if_neg (Ne.symm other), Nat.add_zero] at gone new
  exact ⟨gone, new⟩

section Gap

variable {s : State} {h : State → Instr → State}

theorem inGap_nothing {l : List (List Instr)} (first : s.meanwhile = [] :: l) : inGap h s = { s with meanwhile := l } := by
  simp only [inGap, first, List.headD_cons, List.foldl_nil, List.tail_cons]

theorem inGap_one {j : Instr} (first : s.meanwhile = [[j]]) : inGap h s = h { s with meanwhile := [] } j := by
  simp only [inGap, first, List.headD_cons, List.foldl_cons, List.foldl_nil, List.tail_cons]

end Gap

/-- The turn of `a` has been missed, and what comes before the next turn has been taken up. -/
def missedTurn (s : State) (a d : CircuitNo) : State :=
  { miss { s with meanwhile := [[.characterSent d]] } a with meanwhile := [] }

section Returned

variable {s : State} {a b d : CircuitNo} {n : SlotNo} {r : Rec}

theorem missedTurn_freeCount (s : State) (a d : CircuitNo) : (missedTurn s a d).freeCount = s.freeCount :=
  (raise_report (countMissed { s with meanwhile := [[.characterSent d]] } a) _ _).freeCount

theorem missedTurn_occurred (s : State) (a d : CircuitNo) : Occurred .poolEmpty (.circuit a) s (missedTurn s a d) :=
  (miss_occurred { s with meanwhile := [[.characterSent d]] } a).congr rfl rfl

theorem missedTurn_missed (s : State) (a d : CircuitNo) :
    (missedTurn s a d).circuits[a].sender.missed = min (s.circuits[a].sender.missed + 1) 65535 :=
  miss_missed { s with meanwhile := [[.characterSent d]] } a

section Quiet

variable (quiet : s.latch.alertMode = false)

include quiet

theorem missedTurn_other {c : CircuitNo} (e : c ≠ a) : (missedTurn s a d).circuits[c] = s.circuits[c] := by
  obtain ⟨f, eq⟩ := miss_quiet (s := { s with meanwhile := [[.characterSent d]] }) quiet a
  have circuits : (missedTurn s a d).circuits = (countMissed s a).circuits := by rw [missedTurn, eq]; rfl
  rw [circuits]
  exact modAt_other _ _ e

/-- R117: the turn of `b` finds the record that has come back since the turn of `a`. -/
theorem makeRecords_returned (comes : s.meanwhile = [[], [.characterSent d]]) (empty : s.freeCount = 0)
    (low : r.cls ≠ .flash) (finished : Finished d (missedTurn s a d) (charSent (missedTurn s a d) d)) :
    makeRecords s [a, b] n r = makeFree (charSent (missedTurn s a d) d) b n r := by
  have first : makeTurn n r s a = miss { s with meanwhile := [[.characterSent d]] } a := by
    rw [makeTurn, inGap_nothing comes]
    exact turnFor_miss empty (.inl low)
  obtain ⟨f, eq⟩ := miss_quiet (s := { s with meanwhile := [[.characterSent d]] }) quiet a
  have still : (miss { s with meanwhile := [[.characterSent d]] } a).meanwhile = [[.characterSent d]] := by rw [eq]; rfl
  have freed : (missedTurn s a d).freeCount < (charSent (missedTurn s a d) d).freeCount := by
    rw [finished.freeCount]
    exact Nat.lt_succ_self _
  have free : 0 < (charSent (missedTurn s a d) d).freeCount := Nat.zero_lt_of_lt freed
  have turns : makeRecords s [a, b] n r = makeTurn n r (makeTurn n r s a) b := rfl
  have second : inGap takenBeforeTurn (miss { s with meanwhile := [[.characterSent d]] } a) = charSent (missedTurn s a d) d := by
    rw [inGap_one still]
    exact takenBeforeTurn_freed freed
  rw [turns, first, makeTurn, second, turnFor, if_pos free]

end Quiet

/-- R117: after the turns of `a` and `b`. -/
theorem returned_making {x : Rec} {f : RecRef} {g : Sending} (ab : a ≠ b) (ad : a ≠ d) (bd : b ≠ d)
    (comes : s.meanwhile = [[], [.characterSent d]]) (idle : IdleCarriesNothing s) (empty : s.freeCount = 0)
    (low : r.cls ≠ .flash) (quiet : s.latch.alertMode = false) (sending : s.circuits[d].sender.sending = some g)
    (carried : s.circuits[d].sender.carried = .record x) (ref : x.ref = some f)
    (phase : s.circuits[d].sender.phase = .trailer) (tail : s.circuits[d].sender.tail = []) :
    ∀ u, u = makeRecords s [a, b] n r →
      u.freeCount = 0 ∧ u.meanwhile = [] ∧
      u.circuits[a].sender.missed = min (s.circuits[a].sender.missed + 1) 65535 ∧
      u.circuits[b].sender.missed = s.circuits[b].sender.missed ∧
      u.circuits[d].sender.completed = min (s.circuits[d].sender.completed + 1) 65535 ∧
      recordsOn (fun y => decide (y = r)) u.circuits[b] = recordsOn (fun y => decide (y = r)) s.circuits[b] + 1 ∧
      Occurred .poolEmpty (.circuit a) s u := by
  have onD : (missedTurn s a d).circuits[d] = s.circuits[d] := missedTurn_other quiet (Ne.symm ad)
  have finished : Finished d (missedTurn s a d) (charSent (missedTurn s a d) d) :=
    charSent_finished (onD ▸ sending) (onD ▸ carried) ref (onD ▸ phase) (onD ▸ tail)
  have onB : (charSent (missedTurn s a d) d).circuits[b] = s.circuits[b] :=
    (finished.others b bd).trans (missedTurn_other quiet (Ne.symm ab))
  rintro u rfl
  rw [makeRecords_returned quiet comes empty low finished]
  have free := finished.freeCount
  rw [missedTurn_freeCount, empty] at free
  generalize charSent (missedTurn s a d) d = t at finished onB free
  have made : Made n [b] (fun y => decide (y = r)) t (makeFree t b n r) :=
    makeFree_made (decide_eq_true rfl) (onB ▸ idle b)
  refine ⟨?_, ?_, ?_, ?_, ?_, ?_, ?_⟩
  · rw [made.freeCount, free]
    rfl
  · exact made.meanwhile.trans finished.meanwhile
  · rw [made.others a fun mem => ab (List.mem_singleton.mp mem), finished.others a ad, missedTurn_missed]
  · have kept : (makeFree t b n r).circuits[b].sender.missed = t.circuits[b].sender.missed := joinQueue_missed _ b r
    rw [kept, onB]
  · rw [made.others d fun mem => bd (List.mem_singleton.mp mem).symm, finished.completed, onD]
  · rw [made.made b (List.mem_singleton_self b), onB]
  · have latch : (makeFree t b n r).latch = t.latch := (joinQueue_only _ b r).latch
    exact (missedTurn_occurred s a d).congr rfl (occurrence_of_latch (latch.trans finished.latch) _)

end Returned

/-- Settles O29: a making is its turns one after the other; a turn takes a free record, is missed, or displaces one. -/
theorem recordsAreMadeForEachCircuit : Obligations.RecordsAreMadeForEachCircuit := by
  unfold Obligations.RecordsAreMadeForEachCircuit
  refine ⟨?_, ?_, ?_, ?_⟩
  · rintro s cs n r nothing idle nodup enough u rfl
    have made := makeRecords_made (n := n) (p := fun x => decide (x = r)) (decide_eq_true rfl) cs nodup (fun c _ => idle c)
      enough nothing
    exact ⟨made.freeCount, made.slots, made.made, made.others⟩
  · rintro s c n r nothing empty none u rfl
    rw [makeRecords_one nothing, turnFor_miss empty none]
    have raised := raise_report (countMissed s c) .poolEmpty (.circuit c)
    exact ⟨raised.freeCount.trans empty, raised.slots, miss_missed s c, miss_occurred s c, miss_delivery s c⟩
  · rintro s c n r old i nothing idle empty flash worst queued u rfl
    have low : old.cls = .routine ∨ old.cls = .deferred := by
      obtain ⟨x, here, good, -⟩ := worst
      obtain rfl := Option.some.inj (here.symm.trans queued)
      exact of_decide_eq_true good
    rw [makeRecords_one nothing, turnFor_displaceAt empty flash worst queued]
    obtain ⟨gone, new⟩ := displaced_making (n := n) (idle c) flash queued low
    exact ⟨(displaceAt_freeCount s c i old n r).trans empty, displaceAt_slots s c i old n r, displaceAt_missed s c i old n r,
      fun f y => displaceAt_occurred, gone, new, displaceAt_delivery s c i old n r⟩
  · intro s a b d n r x f g ab ad bd comes idle empty low quiet sending carried ref _ phase tail
    exact returned_making ab ad bd comes idle empty low quiet sending carried ref phase tail

end Sys2Proof.Machine
/-! ## What a step does to the circuits (O56, O57)

Whatever a command does to the queues and the senders is made of a few operations: a change that a sender does not notice,
a sender that halts or closes, an offer of work, an expiry of a motor start timer, and a character sent. `Worked` says so
of every command once, and the invariants of the circuits follow by induction on it. -/

namespace Sys2Proof.Machine

open Sys2Proof

/-! ### What an operation other than sending does to one circuit -/

/-- The same kind of thing is carried, a record of the same class. -/
inductive Carried.Alike : Carried → Carried → Prop where
  | same (a : Carried) : Carried.Alike a a
  | record {r r' : Rec} (cls : r'.cls = r.cls) : Carried.Alike (.record r) (.record r')

/-- The sender of the circuit goes on as it was; suspended records may have left, and records be renamed. -/
structure Circuit.Continues (x y : Circuit) : Prop where
  desc : y.desc = x.desc
  state : y.sender.state = x.sender.state
  motor : y.sender.motor = x.sender.motor
  column : y.sender.column = x.sender.column
  sending : y.sender.sending = x.sender.sending
  timers : y.sender.motorTimer = x.sender.motorTimer ∧ y.sender.runOnTimer = x.sender.runOnTimer
  carried : x.sender.carried.Alike y.sender.carried
  chain : (y.sender.chain.map Rec.cls).Sublist (x.sender.chain.map Rec.cls)

/-- The sender of the circuit stands STOPPED as R132 has it; suspended records may have left. -/
structure Circuit.Halts (x y : Circuit) : Prop where
  carriage : 20 ≤ x.desc.carriage → 20 ≤ y.desc.carriage
  state : y.sender.state = .stopped
  motor : y.sender.motor = false
  column : y.sender.column = 0
  sending : y.sender.sending = none
  timers : y.sender.motorTimer = none ∧ y.sender.runOnTimer = none
  carried : y.sender.carried = .nothing
  chain : (y.sender.chain.map Rec.cls).Sublist (x.sender.chain.map Rec.cls)

/-- What an operation does to one circuit, unless its sender takes up work or sends. -/
inductive Circuit.Eases : Circuit → Circuit → Prop where
  | continues {x y : Circuit} (h : x.Continues y) : Circuit.Eases x y
  | halts {x y : Circuit} (h : x.Halts y) : Circuit.Eases x y
  | closes {x : Circuit} (carrying : x.sender.state = .carrying) :
    Circuit.Eases x { x with sender := { x.sender with state := .closing, breakPending := false } }
  | described {x : Circuit} {d : CircuitDesc} (stopped : x.sender.state = .stopped) (carriage : 20 ≤ d.carriage) :
    Circuit.Eases x { x with desc := d, outOfService := false }

theorem Circuit.Continues.of_sender {x y : Circuit} (desc : y.desc = x.desc) (sender : y.sender = x.sender) :
    x.Continues y := by
  have same : x.sender.carried.Alike y.sender.carried := sender ▸ .same _
  refine ⟨desc, ?_, ?_, ?_, ?_, ⟨?_, ?_⟩, same, ?_⟩ <;> rw [sender]

theorem Circuit.Eases.refl (x : Circuit) : x.Eases x := .continues (.of_sender rfl rfl)

/-! ### A character sent (R137) -/

/-- The circuit once the character `g` has been sent: nothing is being sent, and what was carried is carried on or gone. -/
structure Circuit.Rests (g : Sending) (x y : Circuit) : Prop where
  desc : y.desc = x.desc
  state : y.sender.state = x.sender.state
  motor : y.sender.motor = x.sender.motor
  column : y.sender.column = columnAfter g x.sender
  sending : y.sender.sending = none
  timers : y.sender.motorTimer = x.sender.motorTimer ∧ y.sender.runOnTimer = x.sender.runOnTimer
  carried : y.sender.carried = .nothing ∨ x.sender.carried.Alike y.sender.carried
  chain : y.sender.chain = x.sender.chain

/-- What a character-sent event ends with at circuit `c`. -/
inductive SentEnds (c : CircuitNo) (v : State) : State → Prop where
  | rests : SentEnds c v v
  | goesOn : SentEnds c v (takeNext v c)
  | selects : SentEnds c v (select v c)
  | pauses : SentEnds c v (enterPausing v c)
  | breaks {r b : Rec} {i : Nat} (carried : v.circuits[c].sender.carried = .record r)
    (queued : v.circuits[c].queue[i]? = some b)
    (into : breaksInto v.circuits[c].desc.bulletinBreak b.cls r.cls = true) : SentEnds c v (makeBreak v c r i b)

/-- The circuits of the second state are those of the first as the operations of a step leave them. After a character sent
the report buffer may offer its reports before the event ends; a sender that carries something takes no offer. -/
inductive Worked : State → State → Prop where
  | eased {s u : State} (low : u.resetLow = s.resetLow) (each : ∀ c : CircuitNo, s.circuits[c].Eases u.circuits[c]) :
    Worked s u
  | halted {s u : State} (each : ∀ c : CircuitNo, s.circuits[c].Halts u.circuits[c]) : Worked s u
  | asserted (s : State) : Worked s { s with
      resetLow := true
      circuits := mapAll s.circuits fun x => { x with sender := { x.sender with motor := false, sending := none } } }
  | offered (s : State) (c : CircuitNo) : Worked s (offer s c)
  | ready (c : CircuitNo) (s : State) : Worked s (motorReady c s)
  | sent {s w v u : State} {c : CircuitNo} {g : Sending} (sending : s.circuits[c].sender.sending = some g)
    (low : w.resetLow = s.resetLow) (others : ∀ d : CircuitNo, d ≠ c → w.circuits[d] = s.circuits[d])
    (rests : s.circuits[c].Rests g w.circuits[c]) (offers : Worked w v)
    (busy : w.circuits[c].sender.Busy → v.circuits[c] = w.circuits[c]) (ends : SentEnds c v u) : Worked s u
  | trans {s t u : State} (first : Worked s t) (second : Worked t u) : Worked s u

theorem Worked.other {s u : State} (circuits : u.circuits = s.circuits) (low : u.resetLow = s.resetLow) : Worked s u :=
  .eased low fun _ => circuits ▸ .refl _

theorem Worked.refl (s : State) : Worked s s := .other rfl rfl

theorem Worked.circuit {s : State} {c : CircuitNo} {f : Circuit → Circuit} (eases : s.circuits[c].Eases (f s.circuits[c])) :
    Worked s (modCircuit s c f) := by
  refine .eased rfl fun d => ?_
  rw [modCircuit_circuits, modAt_get]
  split
  · next e => subst e; exact eases
  · exact .refl _

theorem Worked.circuits {s u : State} {f : Circuit → Circuit} (low : u.resetLow = s.resetLow)
    (circuits : u.circuits = mapAll s.circuits f) (eases : ∀ x : Circuit, x.Eases (f x)) : Worked s u := by
  refine .eased low fun d => ?_
  rw [circuits, mapAll_get]
  exact eases _

theorem foldl_worked {α : Type} (f : State → α → State) (h : ∀ s a, Worked s (f s a)) (l : List α) (s : State) :
    Worked s (l.foldl f s) := foldl_keeps Worked .refl .trans f h l s

/-- A sender changed in nothing that `Circuit.Continues` tells. -/
theorem modSender_worked {s : State} {c : CircuitNo} {f : Sender → Sender}
    (continues : s.circuits[c].Continues { s.circuits[c] with sender := f s.circuits[c].sender }) :
    Worked s (modSender s c f) := .circuit (.continues continues)

theorem modQueue_worked (s : State) (c : CircuitNo) (f : List Rec → List Rec) : Worked s (modQueue s c f) :=
  .circuit (.continues (.of_sender rfl rfl))

theorem halted_halts (x : Circuit) : x.Halts { x with sender := x.sender.halted } :=
  ⟨id, rfl, rfl, rfl, rfl, ⟨rfl, rfl⟩, rfl, .refl _⟩

/-! ### Work offered, and withholding (R112, R133 to R136, R151, R194) -/

theorem tellJoined_worked (s : State) (c : CircuitNo) (x : Class) : Worked s (tellJoined s c x) := by
  unfold tellJoined
  split
  · unfold breakIfPending
    split
    · split
      · exact modSender_worked ⟨rfl, rfl, rfl, rfl, rfl, ⟨rfl, rfl⟩, .same _, .refl _⟩
      · exact .refl s
    · exact .refl s
  · exact .offered s c

theorem joinQueue_worked (s : State) (c : CircuitNo) (r : Rec) : Worked s (joinQueue s c r) :=
  .trans (modQueue_worked s c _) (tellJoined_worked _ c r.cls)

theorem workTest_worked (s : State) (c : CircuitNo) : Worked s (workTest s c) := by
  by_cases stopped : s.circuits[c].sender.state = .stopped
  · have same : offer s c = workTest s c := by simp only [offer, stopped]
    exact same ▸ .offered s c
  · have same : workTest s c = s := if_neg fun h => stopped h.1
    exact same.symm ▸ .refl s

theorem tellWithheldMore_worked (s : State) (c : CircuitNo) : Worked s (tellWithheldMore s c) := by
  unfold tellWithheldMore
  split
  · split
    · exact .refl s
    · exact .circuit (.halts (halted_halts _))
  · next carrying =>
    split
    · exact .refl s
    · exact .circuit (.closes carrying)
  · exact .refl s

theorem tellDegree_worked (m : Mode) (s : State) (c : CircuitNo) : Worked s (tellDegree m s c) := by
  unfold tellDegree
  dsimp only
  split
  · exact tellWithheldMore_worked s c
  · split
    · exact .offered s c
    · exact .refl s

/-! ### Reports and the latch (R172, R173, R181, R184) -/

theorem pushReport_worked (s : State) (t : Text) : Worked s (pushReport s t) :=
  .trans (t := modMgmt s fun m => { m with reports := m.reports ++ [t] }) (.other rfl rfl) (.offered _ _)

theorem alertDue_worked (s : State) (k : EventKind) : Worked s (alertDue s k) := by
  unfold alertDue
  split
  · exact pushReport_worked s _
  · exact .other rfl rfl

theorem raise_worked (s : State) (k : EventKind) (d : Detail) : Worked s (raise s k d) := by
  unfold raise
  dsimp only
  split
  · exact .other rfl rfl
  · split
    · exact .trans (t := modEntry s k fun e => { e with latched := true, detail := some d, count := 1 })
        (.other rfl rfl) (alertDue_worked _ k)
    · exact .other rfl rfl

theorem placeReply_worked (s : State) (t : Text) : Worked s (placeReply s t) := by
  unfold placeReply
  split
  · exact pushReport_worked s t
  · exact raise_worked s _ _

theorem payOwed_worked (s : State) (k : EventKind) : Worked s (payOwed s k) := by
  unfold payOwed
  split
  · exact .trans (t := modEntry s k fun e => { e with owed := false }) (.other rfl rfl) (pushReport_worked _ _)
  · exact .refl s

theorem reportLeaves_worked (s : State) : Worked s (reportLeaves s) :=
  .trans (t := modMgmt s fun m => { m with reports := m.reports.tail }) (.other rfl rfl)
    (foldl_worked payOwed payOwed_worked allKinds _)

/-! ### The cases of a character sent (R123, R137, R143 to R152) -/

section Sent

variable {s a : State} {c : CircuitNo} {g : Sending}

/-- An event that offers no reports between the character sent and its end. -/
theorem Worked.sent_ends {w u : State} (sending : s.circuits[c].sender.sending = some g)
    (low : w.resetLow = s.resetLow) (others : ∀ d : CircuitNo, d ≠ c → w.circuits[d] = s.circuits[d])
    (rests : s.circuits[c].Rests g w.circuits[c]) (ends : SentEnds c w u) : Worked s u :=
  .sent sending low others rests (.refl w) (fun _ => rfl) ends

/-- The state `a` is `s` with the character `g` sent on circuit `c`, and no more done to the circuits than that. -/
structure HasSent (s : State) (c : CircuitNo) (g : Sending) (a : State) : Prop where
  sending : s.circuits[c].sender.sending = some g
  low : a.resetLow = s.resetLow
  others : ∀ d : CircuitNo, d ≠ c → a.circuits[d] = s.circuits[d]
  rests : s.circuits[c].Rests g a.circuits[c]

theorem HasSent.ends {u : State} (h : HasSent s c g a) (ends : SentEnds c a u) : Worked s u :=
  .sent_ends h.sending h.low h.others h.rests ends

/-- The sender goes on to change in what `Circuit.Rests` does not tell, or to carry nothing. -/
theorem HasSent.changed {f : Sender → Sender} (h : HasSent s c g a)
    (same : (f a.circuits[c].sender).state = a.circuits[c].sender.state ∧
      (f a.circuits[c].sender).motor = a.circuits[c].sender.motor ∧
      (f a.circuits[c].sender).column = a.circuits[c].sender.column ∧ (f a.circuits[c].sender).sending = none ∧
      (f a.circuits[c].sender).motorTimer = a.circuits[c].sender.motorTimer ∧
      (f a.circuits[c].sender).runOnTimer = a.circuits[c].sender.runOnTimer ∧
      (f a.circuits[c].sender).chain = a.circuits[c].sender.chain)
    (carried : (f a.circuits[c].sender).carried = .nothing ∨
      (f a.circuits[c].sender).carried = a.circuits[c].sender.carried) : HasSent s c g (modSender a c f) := by
  obtain ⟨state, motor, column, sending, motorTimer, runOn, chain⟩ := same
  have rests := h.rests
  have carries : (f a.circuits[c].sender).carried = .nothing ∨
      s.circuits[c].sender.carried.Alike (f a.circuits[c].sender).carried := by
    obtain nothing | same := carried
    · exact .inl nothing
    · rw [same]
      exact rests.carried
  refine ⟨h.sending, h.low, fun d e => ((modSender_only a c f).other e).trans (h.others d e), ?_⟩
  rw [modSender_circuit]
  exact
    { desc := rests.desc
      state := state.trans rests.state
      motor := motor.trans rests.motor
      column := column.trans rests.column
      sending := sending
      timers := ⟨motorTimer.trans rests.timers.1, runOn.trans rests.timers.2⟩
      carried := carries
      chain := chain.trans rests.chain }

/-- What was carried is gone. -/
theorem HasSent.bared {f : Sender → Sender} (h : HasSent s c g a)
    (bared : ∀ x, ∃ n, f x = { x.bare with completed := n }) : HasSent s c g (modSender a c f) := by
  obtain ⟨n, eq⟩ := bared a.circuits[c].sender
  refine h.changed ?_ (.inl ?_)
  · rw [eq]
    exact ⟨rfl, rfl, rfl, rfl, rfl, rfl, rfl⟩
  · rw [eq]
    rfl

theorem Circuit.Rests.of_sender {x y z : Circuit} (h : x.Rests g y) (desc : z.desc = y.desc) (sender : z.sender = y.sender) :
    x.Rests g z := by
  refine ⟨desc.trans h.desc, ?_, ?_, ?_, ?_, ?_, ?_, ?_⟩ <;> rw [sender]
  exacts [h.state, h.motor, h.column, h.sending, h.timers, h.carried, h.chain]

/-- Nothing more has been done to the senders and the descriptors. -/
theorem HasSent.keeps {w : State} (h : HasSent s c g a) (low : w.resetLow = a.resetLow)
    (others : ∀ d : CircuitNo, d ≠ c → w.circuits[d] = a.circuits[d]) (desc : w.circuits[c].desc = a.circuits[c].desc)
    (sender : w.circuits[c].sender = a.circuits[c].sender) : HasSent s c g w :=
  ⟨h.sending, low.trans h.low, fun d e => (others d e).trans (h.others d e), h.rests.of_sender desc sender⟩

theorem HasSent.returned (h : HasSent s c g a) (r : Rec) : HasSent s c g (returnRecord a r) :=
  have same := returnRecord_circuits a r
  h.keeps (returnRecord_delivery a r).tables.resetLow (fun _ _ => by rw [same]) (by rw [same]) (by rw [same])

theorem handBackCurrent_others (s : State) (c : CircuitNo) (r : Rec) (f : RecRef) {d : CircuitNo} (e : d ≠ c) :
    (handBackCurrent s c r f).circuits[d] = s.circuits[d] := by
  unfold handBackCurrent
  split
  · simp only [returnRecord_circuits]
  · exact (modQueue_only s c _).other e

theorem handBack_others (s : State) (c : CircuitNo) (r : Rec) {d : CircuitNo} (e : d ≠ c) :
    (handBack s c r).circuits[d] = s.circuits[d] := by
  unfold handBack
  split
  · simp only [returnRecord_circuits]
  · split
    · exact handBackCurrent_others s c r _ e
    · exact handBackCurrent_others _ c _ _ e

theorem HasSent.handedBack (h : HasSent s c g a) (r : Rec) : HasSent s c g (handBack a c r) :=
  have tables := (handBack_delivery a c r).tables
  h.keeps tables.resetLow (fun _ e => handBack_others a c r e) (tables.circuitDescs c).1 (handBack_sender a c r)

theorem settlePhase_sending (v : Version) (x : Sender) : (settlePhase v x).sending = x.sending := by
  have step (p : Prop) [Decidable p] (z : Sender) (q : Phase) (t : Text) :
      (if p then { z with phase := q, tail := t } else z).sending = z.sending := by split <;> rfl
  have step' (p : Prop) [Decidable p] (z : Sender) (q : Phase) :
      (if p then { z with phase := q } else z).sending = z.sending := by split <;> rfl
  unfold settlePhase
  dsimp only
  rw [step, step', step', step']

theorem settlePhase_motor (v : Version) (x : Sender) : (settlePhase v x).motor = x.motor :=
  (congrArg Sender.motor (settlePhase_unsettled v x) :)

theorem settlePhase_column (v : Version) (x : Sender) : (settlePhase v x).column = x.column :=
  (congrArg Sender.column (settlePhase_unsettled v x) :)

theorem settlePhase_timers (v : Version) (x : Sender) :
    (settlePhase v x).motorTimer = x.motorTimer ∧ (settlePhase v x).runOnTimer = x.runOnTimer :=
  ⟨(congrArg Sender.motorTimer (settlePhase_unsettled v x) :), (congrArg Sender.runOnTimer (settlePhase_unsettled v x) :)⟩

theorem HasSent.settled (h : HasSent s c g a) (v : Version) :
    HasSent s c g (modSender a c fun _ => settlePhase v a.circuits[c].sender) := by
  have sending := (settlePhase_sending v a.circuits[c].sender).trans h.rests.sending
  have timers := settlePhase_timers v a.circuits[c].sender
  exact h.changed ⟨settlePhase_state v _, settlePhase_motor v _, settlePhase_column v _, sending, timers.1, timers.2,
    settlePhase_chain v _⟩ (.inr (settlePhase_carried v _))

theorem startCut_worked (h : HasSent s c g a) : Worked s (startCut a c) :=
  HasSent.ends (h.changed ⟨rfl, rfl, rfl, h.rests.sending, rfl, rfl, rfl⟩ (.inr rfl)) .goesOn

theorem finishCut_worked (h : HasSent s c g a) (r : Rec) : Worked s (finishCut a c r) :=
  ((h.bared fun x => ⟨x.completed, rfl⟩).returned r).ends .selects

theorem finishDelivery_worked (h : HasSent s c g a) (r : Rec) : Worked s (finishDelivery a c r) :=
  ((h.bared fun x => ⟨count x.completed, rfl⟩).returned r).ends .selects

theorem closeEnds_worked (h : HasSent s c g a) (r : Rec) (last : Phase) : Worked s (closeEnds a c r last) := by
  have handed (r' : Rec) : HasSent s c g (handBack (modSender a c Sender.bare) c r') :=
    (h.bared fun x => ⟨x.completed, rfl⟩).handedBack r'
  unfold closeEnds
  dsimp only
  split
  · exact (handed _).ends .selects
  · exact (handed _).ends .pauses

/-- The member found qualifies. -/
theorem highest_good {p : Rec → Bool} {f : Rec → Nat} {q : List Rec} {i v : Nat} {r : Rec}
    (found : highest p f q = some (i, v)) (here : q[i]? = some r) : p r = true := by
  rw [highest_eq_pick] at found
  obtain ⟨r', -, picked⟩ := picked_of_pick ranks_ge found
  obtain rfl : r' = r := Option.some.inj (picked.here.symm.trans here)
  exact picked.good

/-- The breaker found breaks in. -/
theorem breakerFor_breaks {i : Nat} {b : Rec} {x : Class} (found : breakerFor a c x = some i)
    (queued : a.circuits[c].queue[i]? = some b) : breaksInto a.circuits[c].desc.bulletinBreak b.cls x = true := by
  obtain ⟨⟨j, v⟩, best, rfl⟩ := Option.map_eq_some_iff.mp found
  exact (Bool.and_eq_true_iff.mp (highest_good best queued)).2

theorem takeBreak_worked (h : HasSent s c g a) {r : Rec} (carried : a.circuits[c].sender.carried = .record r) :
    Worked s (takeBreak a c r) := by
  unfold takeBreak
  split
  · exact h.ends .goesOn
  · split
    · exact h.ends .goesOn
    · next found =>
      split
      · next queued => exact h.ends (.breaks carried queued (breakerFor_breaks found queued))
      · exact h.ends .goesOn

theorem goOn_worked (h : HasSent s c g a) {r : Rec} (carried : a.circuits[c].sender.carried = .record r) (last : Phase) :
    Worked s (goOn a c r last) := by
  unfold goOn
  dsimp only
  split
  · split
    · exact closeEnds_worked h r last
    · exact h.ends .goesOn
  · split
    · refine takeBreak_worked (h.changed ⟨rfl, rfl, rfl, h.rests.sending, rfl, rfl, rfl⟩ (.inr rfl)) ?_
      rw [modSender_circuit]
      exact carried
    · exact h.ends .goesOn

theorem recordSent_worked (h : HasSent s c g a) {r : Rec} (carried : a.circuits[c].sender.carried = .record r)
    (last : Phase) : Worked s (recordSent a c r last) := by
  unfold recordSent
  dsimp only
  split
  · split
    · exact finishCut_worked h r
    · exact h.ends .goesOn
  · split
    · exact startCut_worked h
    · have settled := h.settled (readVersion a r)
      split
      · exact finishDelivery_worked settled r
      · refine goOn_worked settled ?_ last
        rw [modSender_circuit]
        exact (settlePhase_carried _ _).trans carried

theorem reportSent_worked (h : HasSent s c g a) : Worked s (reportSent a c) := by
  have bared : HasSent s c g (modSender a c Sender.bare) := h.bared fun x => ⟨x.completed, rfl⟩
  unfold reportSent
  dsimp only
  split
  · split
    · exact bared.ends .selects
    · exact h.ends .goesOn
  · split
    · exact startCut_worked h
    · split
      · exact .sent bared.sending bared.low bared.others bared.rests (reportLeaves_worked _) reportLeaves_busy .selects
      · exact h.ends .goesOn

end Sent

theorem charSent_worked (s : State) (c : CircuitNo) : Worked s (charSent s c) := by
  cases sending : s.circuits[c].sender.sending with
  | none =>
    simp only [charSent, sending]
    exact .refl s
  | some g =>
    have sent : HasSent s c g (modSender s c (afterSent g)) := by
      refine ⟨sending, rfl, fun d e => (modSender_only s c _).other e, ?_⟩
      rw [modSender_circuit]
      exact ⟨rfl, rfl, rfl, rfl, rfl, ⟨rfl, rfl⟩, .inr (.same _), rfl⟩
    simp only [charSent, sending]
    split
    · exact sent.ends .rests
    · exact reportSent_worked sent
    · next carried => exact recordSent_worked sent carried _

theorem sendEmpty_worked (fuel : Nat) (s : State) : Worked s (sendEmpty fuel s) := by
  induction fuel generalizing s with
  | zero => exact .refl s
  | succ fuel ih =>
    unfold sendEmpty
    split
    · exact .refl s
    · exact .trans (charSent_worked s _) (ih _)

theorem atOnce_worked (s : State) : Worked s (atOnce s) := sendEmpty_worked _ s

end Sys2Proof.Machine
/-! ## What a step does to the circuits: records made, pulled and rewritten (O56, O57) -/

namespace Sys2Proof.Machine

open Sys2Proof

/-- What comes before leaves the circuits alone. -/
theorem Worked.after {s t u : State} (later : Worked t u) (circuits : t.circuits = s.circuits)
    (low : t.resetLow = s.resetLow) : Worked s u := .trans (.other circuits low) later

/-- What comes after leaves the circuits alone. -/
theorem Worked.before {s t u : State} (first : Worked s t) (circuits : u.circuits = t.circuits)
    (low : u.resetLow = t.resetLow) : Worked s u := .trans first (.other circuits low)

theorem modSlot_worked (s : State) (n : SlotNo) (f : Slot → Slot) : Worked s (modSlot s n f) := .other rfl rfl

theorem modTake_worked (s : State) (n : SlotNo) (t : TakeNo) (f : Take → Take) : Worked s (modTake s n t f) := .other rfl rfl

theorem modLine_worked (s : State) (l : LineNo) (f : Line → Line) : Worked s (modLine s l f) := .other rfl rfl

theorem modFramer_worked (s : State) (l : LineNo) (f : Framer → Framer) : Worked s (modFramer s l f) := .other rfl rfl

theorem modMgmt_worked (s : State) (f : Mgmt → Mgmt) : Worked s (modMgmt s f) := .other rfl rfl

/-! ### Records made (R113 to R117) -/

theorem unnameIn_worked (s : State) (ref : Option RecRef) : Worked s (unnameIn s ref) :=
  .other (unnameIn_circuits s ref) (unnameIn_delivery s ref).tables.resetLow

theorem returnRecord_worked (s : State) (r : Rec) : Worked s (returnRecord s r) :=
  .other (returnRecord_circuits s r) (returnRecord_delivery s r).tables.resetLow

theorem countMissed_worked (s : State) (c : CircuitNo) : Worked s (countMissed s c) :=
  modSender_worked ⟨rfl, rfl, rfl, rfl, rfl, ⟨rfl, rfl⟩, .same _, .refl _⟩

theorem raiseMissed_worked (s : State) (c : CircuitNo) (k : Option Key) : Worked s (raiseMissed s c k) := by
  unfold raiseMissed
  split
  · exact raise_worked s _ _
  · exact .refl s

theorem miss_worked (s : State) (c : CircuitNo) : Worked s (miss s c) :=
  .trans (countMissed_worked s c) (raise_worked _ _ _)

theorem makeFree_worked (s : State) (c : CircuitNo) (n : SlotNo) (r : Rec) : Worked s (makeFree s c n r) :=
  (joinQueue_worked _ c r).after rfl rfl

theorem displaceAt_worked (s : State) (c : CircuitNo) (i : Nat) (old : Rec) (n : SlotNo) (r : Rec) :
    Worked s (displaceAt s c i old n r) := by
  have left : Worked s (unnameIn (modQueue s c fun q => withoutAt q i) old.ref) :=
    .trans (modQueue_worked s c _) (unnameIn_worked _ _)
  have missed := (left.trans (countMissed_worked _ c)).trans (raiseMissed_worked _ c (keyOfRecord s old))
  exact missed.trans ((joinQueue_worked (addPending _ n) c r).after rfl rfl)

theorem turnFor_worked (n : SlotNo) (r : Rec) (s : State) (c : CircuitNo) : Worked s (turnFor n r s c) := by
  unfold turnFor
  split
  · exact makeFree_worked s c n r
  · split
    · split
      · exact miss_worked s c
      · split
        · exact displaceAt_worked s c _ _ n r
        · exact miss_worked s c
    · exact miss_worked s c

theorem takenBeforeTurn_worked (s : State) (i : Instr) : Worked s (takenBeforeTurn s i) := by
  unfold takenBeforeTurn
  split
  · split
    · exact charSent_worked s _
    · exact .refl s
  · split
    · exact .ready _ s
    · exact .refl s
  · exact .refl s

theorem inGap_worked {f : State → Instr → State} (h : ∀ s i, Worked s (f s i)) (s : State) : Worked s (inGap f s) :=
  (foldl_worked f h _ { s with meanwhile := s.meanwhile.tail }).after rfl rfl

theorem makeRecords_worked (s : State) (cs : List CircuitNo) (n : SlotNo) (r : Rec) : Worked s (makeRecords s cs n r) :=
  foldl_worked _ (fun s c => .trans (inGap_worked takenBeforeTurn_worked s) (turnFor_worked n r _ c)) cs s

theorem makeFor_worked (s : State) (n : SlotNo) (t : TakeNo) (k : RecKind) (gap : List TakeNo) (but : List CircuitNo) :
    Worked s (makeFor s n t k gap but) := by
  unfold makeFor
  split
  · exact .refl s
  · exact makeRecords_worked s _ n _

/-! ### The order gate (R72 to R75) -/

theorem releaseTake_worked (s : State) (n : SlotNo) (t : TakeNo) (k : RecKind) (gap : List TakeNo) :
    Worked s (releaseTake s n t k gap) := (makeFor_worked _ n t k gap []).after rfl rfl

theorem searchGate_worked (fuel : Nat) (s : State) (n : SlotNo) : Worked s (searchGate fuel s n) := by
  induction fuel generalizing s with
  | zero => exact .refl s
  | succ fuel ih =>
    unfold searchGate
    split
    · exact .refl s
    · exact .trans (releaseTake_worked s n _ .new []) (ih _)

theorem gateSearch_worked (s : State) (n : SlotNo) : Worked s (gateSearch s n) := searchGate_worked 12 s n

theorem expireWait_worked (s : State) (n : SlotNo) (m : TakeNo) : Worked s (expireWait s n m) := by
  let a := modSlot s n fun x => { x with passed := unionOf x.passed (setOf (passedBy s.slots[n] m)) }
  have due : Worked a ((waitingUpTo s.slots[n] m).foldl
      (fun u t => releaseTake u n t .new (gapNotice (passedBy s.slots[n] m) t)) a) :=
    foldl_worked _ (fun u t => releaseTake_worked u n t .new _) _ a
  have searched := (due.trans (gateSearch_worked _ n)).after (s := s) rfl rfl
  unfold expireWait
  dsimp only
  split
  · exact searched.trans (raise_worked _ _ _)
  · exact searched

theorem releaseLate_worked (s : State) (n : SlotNo) (t : TakeNo) : Worked s (releaseLate s n t) :=
  (releaseTake_worked _ n t .late []).after rfl rfl

theorem gate_worked (s : State) (n : SlotNo) (t : TakeNo) : Worked s (gate s n t) := by
  unfold gate
  dsimp only
  split
  · exact .trans (releaseLate_worked s n t) (gateSearch_worked _ n)
  · split
    · exact .trans (releaseTake_worked s n t .new []) (gateSearch_worked _ n)
    · split
      · exact (expireWait_worked _ n t).after rfl rfl
      · exact .other rfl rfl

/-! ### Characters written, and takes cut (R69 to R71) -/

theorem raiseTakeCut_worked (s : State) (n : SlotNo) (t : TakeNo) : Worked s (raiseTakeCut s n t) := by
  unfold raiseTakeCut
  split
  · exact raise_worked s _ _
  · exact .refl s

theorem writeChar_worked (s : State) (n : SlotNo) (t : TakeNo) (h : House) : Worked s (writeChar s n t h) := by
  unfold writeChar
  split
  · exact .refl s
  · split
    · dsimp only
      split
      · split
        · exact .other rfl rfl
        · exact (raiseTakeCut_worked _ n t).after rfl rfl
      · exact .other rfl rfl
    · exact .refl s

theorem endCut_worked (s : State) (n : SlotNo) (t : TakeNo) : Worked s (endCut s n t) := by
  unfold endCut
  split
  · exact .refl s
  · dsimp only
    split
    · exact .refl s
    · exact (raiseTakeCut_worked _ n t).after rfl rfl

/-! ### Records pulled, and substitutes stored (R63, R78 to R81) -/

theorem filter_classes (p : Rec → Bool) (l : List Rec) : ((l.filter p).map Rec.cls).Sublist (l.map Rec.cls) :=
  List.filter_sublist.map Rec.cls

theorem Circuit.pulled_continues (p : Rec → Bool) (line : CutLine) (x : Circuit) : x.Continues (x.pulled p line) := by
  have chain := filter_classes (fun r => !p r) x.sender.chain
  unfold Circuit.pulled Sender.detached
  cases carried : x.sender.carried with
  | nothing => exact ⟨rfl, rfl, rfl, rfl, rfl, ⟨rfl, rfl⟩, .same _, chain⟩
  | report => exact ⟨rfl, rfl, rfl, rfl, rfl, ⟨rfl, rfl⟩, .same _, chain⟩
  | record r =>
    dsimp only
    split
    · have renamed : x.sender.carried.Alike (.record { r with ref := none }) := carried ▸ .record rfl
      exact ⟨rfl, rfl, rfl, rfl, rfl, ⟨rfl, rfl⟩, renamed, chain⟩
    · exact ⟨rfl, rfl, rfl, rfl, rfl, ⟨rfl, rfl⟩, .same _, chain⟩

theorem pullRecords_worked (p : Rec → Bool) (line : CutLine) (s : State) : Worked s (pullRecords p line s) := by
  have all := pullRecords_eq (p := p) (line := line) s
  exact .circuits (congrArg State.resetLow all :) (congrArg State.circuits all :) fun x => .continues (x.pulled_continues p line)

theorem dropSuperseded_worked (s : State) (n : SlotNo) (t : TakeNo) : Worked s (dropSuperseded s n t) :=
  .trans (pullRecords_worked (reads n t .superseded) .storeCut s) (modSlot_worked _ n _)

theorem toSuperseded_cls (n : SlotNo) (t : TakeNo) (r : Rec) : (toSuperseded n t r).cls = r.cls := by
  unfold toSuperseded
  split <;> rfl

theorem Circuit.replaced_continues (n : SlotNo) (t : TakeNo) (x : Circuit) : x.Continues (x.replaced n t) := by
  have chain : ((x.sender.chain.map (toSuperseded n t)).map Rec.cls).Sublist (x.sender.chain.map Rec.cls) := by
    rw [List.map_map, show Rec.cls ∘ toSuperseded n t = Rec.cls from funext (toSuperseded_cls n t)]
  have carried : x.sender.carried.Alike (x.replaced n t).sender.carried := by
    unfold Circuit.replaced
    cases x.sender.carried with
    | record r => exact .record (toSuperseded_cls n t r)
    | report => exact .same _
    | nothing => exact .same _
  exact ⟨rfl, rfl, rfl, rfl, rfl, ⟨rfl, rfl⟩, carried, chain⟩

theorem replaceText_worked (s : State) (n : SlotNo) (t : TakeNo) : Worked s (replaceText s n t) := by
  refine .trans (dropSuperseded_worked s n t) ?_
  show Worked _ (rewriteQueued (modSlot (moveReaders (dropSuperseded s n t) n t) n _) n t)
  rw [rewriteQueued_moveReaders]
  generalize dropSuperseded s n t = a
  exact .circuits rfl rfl fun x => .continues (x.replaced_continues n t)

theorem storeSubstitute_worked (s : State) (n : SlotNo) (t : TakeNo) : Worked s (storeSubstitute s n t) := by
  have replaced := replaceText_worked s n t
  unfold storeSubstitute
  dsimp only
  split
  · exact replaced
  · split
    · exact (replaced.trans (modTake_worked _ n t _)).trans (makeFor_worked _ n t _ _ _)
    · exact replaced.trans (gate_worked _ n t)

theorem takeEnds_worked (s : State) (n : SlotNo) (t : TakeNo) (cut : Bool) : Worked s (takeEnds s n t cut) := by
  have ended : Worked s (if cut then endCut s n t else s) := by
    split
    · exact endCut_worked s n t
    · exact .refl s
  unfold takeEnds
  split
  · exact .refl s
  · dsimp only
    split
    · exact ended.trans ((gate_worked _ n t).after rfl rfl)
    · exact ended.trans ((storeSubstitute_worked _ n t).after rfl rfl)

/-! ### Messages and framers (R17 to R34, R65 to R68, R159 to R165) -/

section Framers

variable (s : State) (l : LineNo)

theorem handOver_worked (h : CopyHeader) : Worked s (handOver s l h).1 := by
  unfold handOver
  split
  · split
    · exact (raise_worked s _ _).before rfl rfl
    · exact .other rfl rfl
  · split
    · exact (raise_worked s _ _).before rfl rfl
    · split
      · exact .other rfl rfl
      · split <;> exact .other rfl rfl

theorem dropMessage_worked : Worked s (dropMessage s) := by
  unfold dropMessage
  split
  · exact .other rfl rfl
  · exact (placeReply_worked s _).before rfl rfl

theorem messageClosed_worked : Worked s (messageClosed s) := by
  let a := modMgmt s fun m => { m with buffer := .executing }
  have closed (t : Text) (u : State) (first : Worked a u) : Worked s (releaseBuffer (placeReply u t)) :=
    (((modMgmt_worked s _).trans first).trans (placeReply_worked u t)).trans (modMgmt_worked _ Mgmt.released)
  unfold messageClosed
  dsimp only
  split
  · exact .other rfl rfl
  · split
    · exact closed _ a (.refl a)
    · split
      · exact closed _ _ (raise_worked a _ _)
      · exact .other rfl rfl

theorem passOn_worked (h : House) : Worked s (passOn s l h) := by
  unfold passOn
  dsimp only
  split
  · split
    · exact writeChar_worked s _ _ h
    · exact .refl s
  · split
    · exact .other rfl rfl
    · split
      · exact .refl s
      · exact .other rfl rfl
  · exact .refl s

theorem passSlashes_worked (j : Nat) : Worked s (passSlashes s l j) := by
  induction j generalizing s with
  | zero => exact .refl s
  | succ j ih => exact .trans (passOn_worked s l _) (ih _)

theorem endMessageCut_worked : Worked s (endMessageCut s l) := by
  have slashes := passSlashes_worked s l s.lines[l].framer.held
  unfold endMessageCut
  dsimp only
  split
  · split
    · exact slashes.trans (takeEnds_worked _ _ _ true)
    · exact slashes
  · exact slashes.trans (dropMessage_worked _)
  · split
    · exact .refl s
    · exact dropMessage_worked s
  · exact .refl s

theorem framerAbandons_worked : Worked s (framerAbandons s l) := (endMessageCut_worked s l).before rfl rfl

theorem askBuffer_worked : Worked s (askBuffer s l).1 := by
  unfold askBuffer
  split
  · exact .other rfl rfl
  · exact (placeReply_worked _ _).after rfl rfl

theorem takeOpening_worked (k : MessageKind) : Worked s (takeOpening s l k) := by
  have taken : Worked s (modFramer (modLineCounters s l fun c => { c with messagesTaken := count c.messagesTaken }) l
      fun f => { f with header := [], takeRef := none, held := 0, lineStart := false }) := .other rfl rfl
  unfold takeOpening
  dsimp only
  split
  · exact .other rfl rfl
  · split
    · exact (taken.trans (askBuffer_worked _ l)).trans (modFramer_worked _ l _)
    · exact (taken.trans (askBuffer_worked _ l)).trans (modFramer_worked _ l _)

theorem huntChar_worked (h : House) : Worked s (huntChar s l h) := by
  unfold huntChar
  dsimp only
  split
  · split <;> exact .other rfl rfl
  · split
    · exact takeOpening_worked s l _
    · split
      · exact takeOpening_worked s l _
      · exact .other rfl rfl

theorem copyHeaderFault_worked (b : Bool) : Worked s (copyHeaderFault s l b) := (raise_worked s _ _).before rfl rfl

theorem managementHeaderFault_worked (b : Bool) : Worked s (managementHeaderFault s l b) :=
  ((raise_worked s _ _).trans (dropMessage_worked _)).before rfl rfl

theorem headerEnds_worked : Worked s (headerEnds s l) := by
  unfold headerEnds
  dsimp only
  split
  · split
    · exact copyHeaderFault_worked s l true
    · unfold handCopyHeader
      dsimp only
      split <;> exact (handOver_worked s l _).before rfl rfl
  · split
    · exact managementHeaderFault_worked s l true
    · exact .other rfl rfl

theorem headerChar_worked (h : House) : Worked s (headerChar s l h) := by
  unfold headerChar
  split
  · exact headerEnds_worked s l
  · split
    · exact .refl s
    · split
      · exact .other rfl rfl
      · unfold headerFault
        split
        · exact copyHeaderFault_worked s l false
        · exact managementHeaderFault_worked s l false

theorem takeClosing_worked : Worked s (takeClosing s l) := by
  unfold takeClosing
  dsimp only
  split
  · split
    · exact (takeEnds_worked _ _ _ false).after rfl rfl
    · exact .other rfl rfl
  · exact (messageClosed_worked _).after rfl rfl
  · exact .other rfl rfl

theorem decide27_worked (j : Nat) (h : House) : Worked s (decide27 s l j h) :=
  ((passSlashes_worked s l j).trans (passOn_worked _ l h)).before rfl rfl

end Framers

section Between

variable {between : State → State} (comes : ∀ s, Worked s (between s)) (s : State) (l : LineNo)

include comes

theorem openingInBody_worked (k : MessageKind) : Worked s (openingInBody between s l k) := by
  have cut : Worked s (endMessageCut (modFramer s l fun f => { f with held := 0 }) l) :=
    (endMessageCut_worked _ l).after rfl rfl
  unfold openingInBody
  dsimp only
  split
  · exact (cut.trans (comes _)).trans (takeOpening_worked _ l k)
  · exact cut.trans (takeOpening_worked _ l k)

theorem bodyChar_worked (h : House) : Worked s (bodyChar between s l h) := by
  unfold bodyChar
  dsimp only
  split
  · split
    · exact .other rfl rfl
    · exact (passOn_worked s l h).before rfl rfl
  · split
    · split
      · exact .other rfl rfl
      · exact decide27_worked s l 1 h
    · split
      · exact openingInBody_worked comes s l _
      · split
        · exact openingInBody_worked comes s l _
        · split
          · exact takeClosing_worked s l
          · exact decide27_worked s l 2 h

theorem framerChar_worked (h : House) : Worked s (framerChar between s l h) := by
  unfold framerChar
  split
  · exact huntChar_worked s l h
  · exact headerChar_worked s l h
  · exact bodyChar_worked comes s l h
  · exact bodyChar_worked comes s l h
  · exact bodyChar_worked comes s l h
  · exact .refl s

theorem goodCharacter_worked (code : LineCode) : Worked s (goodCharacter between s l code) := by
  have received : Worked s (receiveCode between s l code) := by
    unfold receiveCode
    dsimp only
    split
    · exact (framerChar_worked comes _ l _).after rfl rfl
    · exact .other rfl rfl
  exact received.before rfl rfl

end Between

/-! ### Characters, breaks, silence and lines set afresh (R5 to R12) -/

section Receivers

variable (s : State) (l : LineNo)

theorem openedByAnother_worked (i : Instr) : Worked s (openedByAnother l s i) := by
  unfold openedByAnother
  split
  · dsimp only
    split
    · exact goodCharacter_worked .refl s _ _
    · exact .refl s
  · exact .refl s

theorem characterArrives_worked (v : BitVec 7) (m : Bool) : Worked s (characterArrives l v m s) := by
  have bad (code : LineCode) : Worked s (badCharacter s l code) :=
    (((framerChar_worked .refl s l houseSUB).trans (modLine_worked _ l _)).trans (raise_worked _ _ _)).trans
      (.trans (modLine_worked _ l _) (modLine_worked _ l _))
  unfold characterArrives
  dsimp only
  split
  · split
    · exact goodCharacter_worked (inGap_worked fun s i => openedByAnother_worked s l i) s l _
    · exact bad _
  · exact .refl s

theorem breakBegins_worked : Worked s (breakBegins l s) := by
  unfold breakBegins
  dsimp only
  split
  · have broken : Worked s (raise (modReceiver s l fun _ =>
        { state := .brk, breakWatch := none, markingInterval := none }) .lineBreak (.line l)) :=
      (raise_worked _ _ _).after rfl rfl
    exact (broken.trans (framerAbandons_worked _ l)).before rfl rfl
  · exact .refl s

theorem breakEnds_worked : Worked s (breakEnds l s) := by
  unfold breakEnds
  dsimp only
  split
  · exact .other rfl rfl
  · exact .refl s

theorem lineSilent_worked : Worked s (lineSilent l s) := by
  unfold lineSilent
  split
  · exact .refl s
  · exact (raise_worked _ _ _).after rfl rfl

theorem falseStart_worked : Worked s (falseStart l s) := by
  unfold falseStart
  split
  · exact .other rfl rfl
  · exact .refl s

theorem setLine_worked (d : LineDesc) : Worked s (setLine s l d) :=
  .trans (.trans (modLine_worked s l _) (modLine_worked _ l _)) (.trans (framerAbandons_worked _ l) (modLine_worked _ l _))

theorem lineOut_worked : Worked s (lineOut s l) := (framerAbandons_worked _ l).after rfl rfl

end Receivers

end Sys2Proof.Machine
/-! ## What a step does to the circuits: every command (O56, O57) -/

namespace Sys2Proof.Machine

open Sys2Proof

/-! ### Circuits out of service, and changes of all circuits (R109, R154, R175, R194, R198) -/

theorem raiseStanding_worked (s : State) : Worked s (raiseStanding s) := by
  unfold raiseStanding
  split
  · exact raise_worked s _ _
  · exact .refl s

theorem disposeRecord_worked (c : CircuitNo) (s : State) (r : Rec) : Worked s (disposeRecord c s r) :=
  .trans (.trans (returnRecord_worked s r) (countMissed_worked _ c)) (raiseMissed_worked _ c _)

theorem disposeCarried_worked (s : State) (c : CircuitNo) (x : Carried) : Worked s (disposeCarried s c x) := by
  unfold disposeCarried
  split
  · split
    · exact returnRecord_worked s _
    · exact disposeRecord_worked c s _
  · exact .refl s

theorem circuitOut_worked (s : State) (c : CircuitNo) : Worked s (circuitOut s c) := by
  let f : Circuit → Circuit := fun y => { y with queue := [], sender := { y.sender.halted with chain := [] } }
  have out : Worked s (modCircuit s c f) :=
    .circuit (.halts ⟨id, rfl, rfl, rfl, rfl, ⟨rfl, rfl⟩, rfl, List.nil_sublist _⟩)
  exact (out.trans (disposeCarried_worked _ c _)).trans (foldl_worked _ (disposeRecord_worked c) _ _)

theorem markCircuit_worked (s : State) (c : CircuitNo) : Worked s (markCircuit s c) := by
  have marked : Worked s (modCircuit s c fun x => { x with outOfService := true }) :=
    .circuit (.continues (.of_sender rfl rfl))
  exact marked.trans (circuitOut_worked _ c)

theorem tableCheck_worked (s : State) : Worked s (tableCheck s) := by
  have marked : Worked s (markUnsound s) :=
    .trans (foldl_worked _ lineOut_worked _ s) (foldl_worked _ markCircuit_worked _ _)
  have flagged (lf cf : CheckFlag) : Worked s
      { markUnsound s with mode := { (markUnsound s).mode with loadedFlag := lf, consistentFlag := cf } } :=
    marked.before rfl rfl
  unfold tableCheck
  dsimp only
  split
  · exact (flagged _ _).trans (raise_worked _ _ _)
  · exact flagged _ _

theorem changeMode_worked (s : State) (f : Mode → Mode) : Worked s (changeMode s f) :=
  (foldl_worked _ (tellDegree_worked s.mode) (List.finRange 16) { s with mode := f s.mode }).after rfl rfl

/-- R131: only a STOPPED sender's circuit is described afresh. -/
theorem setCircuit_worked {s : State} {c : CircuitNo} {d : CircuitDesc} (stopped : s.circuits[c].sender.state = .stopped)
    (carriage : 20 ≤ d.carriage) : Worked s (setCircuit s c d) := by
  have set : Worked s (modCircuit s c fun x => { x with desc := d, outOfService := false }) :=
    .circuit (.described stopped carriage)
  unfold setCircuit
  dsimp only
  split
  · exact set.trans (circuitOut_worked _ c)
  · exact set.trans (workTest_worked _ c)

theorem cutReport_worked (s : State) (c : CircuitNo) : Worked s (modSender s c cutReport) := by
  refine modSender_worked ?_
  unfold cutReport
  split
  · exact ⟨rfl, rfl, rfl, rfl, rfl, ⟨rfl, rfl⟩, .same _, .refl _⟩
  · exact .of_sender rfl rfl

theorem moveReports_worked (s : State) (c : CircuitNo) : Worked s (moveReports s c) := by
  unfold moveReports
  dsimp only
  split
  · exact .refl s
  · exact (((modMgmt_worked s _).trans (cutReport_worked _ _)).trans (tellWithheldMore_worked _ _)).trans (.offered _ c)

theorem runOnEnds_worked (c : CircuitNo) (s : State) : Worked s (runOnEnds c s) := by
  unfold runOnEnds
  split
  · exact .circuit (.halts (halted_halts _))
  · exact .refl s

theorem ageQueues_worked (s : State) : Worked s (ageQueues s) :=
  .circuits (f := fun x => { x with queue := x.queue.map aged }) rfl rfl fun _ => .continues (.of_sender rfl rfl)

theorem zeroCounters_worked (s : State) : Worked s (zeroCounters s) :=
  .circuits (f := fun x => { x with sender := { x.sender with completed := 0, missed := 0, breaksIn := 0 } }) rfl rfl
    fun _ => .continues ⟨rfl, rfl, rfl, rfl, rfl, ⟨rfl, rfl⟩, .same _, .refl _⟩

theorem clearStore_worked (s : State) : Worked s (clearStore s) := by
  show Worked s { switchFramers _ (pullRecords namesAny .storeCut s) with slots := _, recency := _ }
  have pulled := pullRecords_worked namesAny .storeCut s
  generalize pullRecords namesAny .storeCut s = a at pulled ⊢
  exact pulled.before rfl rfl

theorem withdrawStory_worked (s : State) (n : SlotNo) : Worked s (withdrawStory s n) := by
  have pulled := pullRecords_worked (names n) .withdrawal s
  unfold withdrawStory
  generalize pullRecords (names n) .withdrawal s = a at pulled ⊢
  dsimp only
  split <;> exact pulled.before rfl rfl

theorem restart_worked (s : State) : Worked s (restart s) := by
  refine .halted fun c => ?_
  have circuit : (restart s).circuits[c] = s.circuits[c].restarted := mapAll_get _ _ c
  rw [circuit]
  exact ⟨id, rfl, rfl, rfl, rfl, ⟨rfl, rfl⟩, rfl, List.nil_sublist _⟩

theorem pinReset_worked (s : State) : Worked s (pinReset s) := by
  refine .halted fun c => ?_
  have circuit : (pinReset s).circuits[c] = Circuit.reset c := tabulate_get _ c
  rw [circuit]
  exact ⟨fun _ => (circuitReset_fits c).1, rfl, rfl, rfl, rfl, ⟨rfl, rfl⟩, rfl, List.nil_sublist _⟩

/-! ### Events (R186, R187) -/

theorem setMask_worked (s : State) (k : EventKind) (on : Bool) : Worked s (setMask s k on) := by
  unfold setMask
  split
  · exact .refl s
  · split
    · exact .other rfl rfl
    · dsimp only
      split
      · exact (alertDue_worked _ k).after rfl rfl
      · exact .other rfl rfl

theorem alertIfLatched_worked (s : State) (k : EventKind) : Worked s (alertIfLatched s k) := by
  unfold alertIfLatched
  split
  · exact alertDue_worked s k
  · exact .refl s

theorem setAlerts_worked (s : State) (on : Bool) : Worked s (setAlerts s on) := by
  unfold setAlerts
  split
  · exact .refl s
  · split
    · exact (foldl_worked _ alertIfLatched_worked allKinds { s with latch := { s.latch with alertMode := true } }).after
        rfl rfl
    · exact .other rfl rfl

/-! ### Requests -/

section Requests

variable (ops : List Text) (s : State)

theorem bodyBankkind_worked : Worked s (bodyBankkind ops s).1 := by
  unfold bodyBankkind withBank
  repeat' split
  all_goals exact .other rfl rfl

theorem bodyBankin_worked : Worked s (bodyBankin ops s).1 := by
  unfold bodyBankin withBank bankinEntries
  dsimp only
  repeat' split
  all_goals exact .other rfl rfl

theorem bodyBankout_worked : Worked s (bodyBankout ops s).1 := by
  unfold bodyBankout withBank
  dsimp only
  repeat' split
  all_goals exact .other rfl rfl

theorem bodyBanksub_worked : Worked s (bodyBanksub ops s).1 := by
  unfold bodyBanksub withBank
  dsimp only
  repeat' split
  all_goals exact .other rfl rfl

theorem bodyBankshift_worked : Worked s (bodyBankshift ops s).1 := by
  unfold bodyBankshift withBank
  dsimp only
  repeat' split
  all_goals exact .other rfl rfl

theorem bodyRoute_worked : Worked s (bodyRoute ops s).1 := by
  unfold bodyRoute
  repeat' split
  all_goals exact .other rfl rfl

theorem bodyRouteoff_worked : Worked s (bodyRouteoff ops s).1 := by
  unfold bodyRouteoff
  repeat' split
  all_goals exact .other rfl rfl

theorem membership_worked (f : Bool → Bool) : Worked s (membership f ops s).1 := by
  unfold membership
  repeat' split
  all_goals exact .other rfl rfl

theorem bodyDefaults_worked : Worked s (bodyDefaults ops s).1 := by
  unfold bodyDefaults
  split <;> exact .other rfl rfl

theorem bodyFlashset_worked : Worked s (bodyFlashset ops s).1 := by
  unfold bodyFlashset
  split <;> exact .other rfl rfl

theorem bodyPrecedence_worked : Worked s (bodyPrecedence ops s).1 := by
  unfold bodyPrecedence
  dsimp only
  repeat' split
  all_goals exact .other rfl rfl

theorem bodyQueue_worked : Worked s (bodyQueue ops s).1 := by
  unfold bodyQueue
  repeat' split
  all_goals exact .refl s

theorem bodyCounts_worked : Worked s (bodyCounts ops s).1 := by
  unfold bodyCounts
  repeat' split
  all_goals exact .refl s

theorem bodyLinebank_worked : Worked s (bodyLinebank ops s).1 := by
  unfold bodyLinebank
  repeat' split
  all_goals exact .other rfl rfl

theorem bodyTakewait_worked : Worked s (bodyTakewait ops s).1 := by
  unfold bodyTakewait
  repeat' split
  all_goals exact .other rfl rfl

theorem bodyEvents_worked : Worked s (bodyEvents ops s).1 := by
  unfold bodyEvents
  repeat' split
  all_goals exact .other rfl rfl

theorem bodyClearevent_worked : Worked s (bodyClearevent ops s).1 := by
  unfold bodyClearevent
  repeat' split
  all_goals exact .other rfl rfl

variable {s}

theorem Worked.atOnce {u : State} (h : Worked s u) : Worked s (atOnce u) := h.trans (atOnce_worked u)

theorem done_worked {u : State} {r : List Text} (h : Worked s u) : Worked s (done u r).1 := h

theorem noOperands_worked {r : State × Answer} (h : Worked s r.1) : Worked s (noOperands ops s r).1 := by
  unfold noOperands
  split
  · exact h
  · exact .refl s

theorem bare_worked {r : State × Answer} (h : Worked s r.1) : Worked s (bare ops s r).1 := by
  unfold bare
  split
  · exact h
  · exact .refl s

theorem withStory_worked {f : SlotNo → State × Answer} (h : ∀ n, Worked s (f n).1) : Worked s (withStory ops s f).1 := by
  unfold withStory
  split
  · exact .refl s
  · split
    · exact .refl s
    · exact h _

variable (s)

theorem bodyMask_worked : Worked s (bodyMask ops s).1 := by
  unfold bodyMask
  split
  · split
    · exact done_worked (setMask_worked s _ _).atOnce
    · exact .refl s
  · exact .refl s

theorem bodyAlerts_worked : Worked s (bodyAlerts ops s).1 := by
  unfold bodyAlerts
  split
  · split
    · exact done_worked (setAlerts_worked s _).atOnce
    · exact .refl s
  · exact .refl s

theorem bodyClearcounts_worked : Worked s (bodyClearcounts ops s).1 := by
  unfold bodyClearcounts
  split
  · exact .refl s
  · exact zeroCounters_worked s

theorem bodyStatus_worked : Worked s (bodyStatus ops s).1 := noOperands_worked ops (.refl s)

theorem bodyRestart_worked : Worked s (bodyRestart ops s).1 := noOperands_worked ops (done_worked (modMgmt_worked s _))

theorem bodyQuiet_worked : Worked s (bodyQuiet ops s).1 := by
  refine noOperands_worked ops ?_
  split
  · exact .refl s
  · exact done_worked (changeMode_worked s _).atOnce

theorem bodyWake_worked : Worked s (bodyWake ops s).1 := by
  refine noOperands_worked ops ?_
  split
  · exact done_worked ((tableCheck_worked s).trans (changeMode_worked _ _)).atOnce
  · exact .refl s

theorem bodyFull_worked : Worked s (bodyFull ops s).1 := by
  refine noOperands_worked ops ?_
  split
  · exact .refl s
  · exact done_worked (changeMode_worked s _).atOnce

theorem bodyReduced_worked : Worked s (bodyReduced ops s).1 := by
  unfold bodyReduced
  split
  · split
    · split
      · split
        · exact done_worked (changeMode_worked s _).atOnce
        · exact .refl s
      · exact .refl s
    · exact .refl s
  · exact .refl s

theorem bodyLine_worked : Worked s (bodyLine ops s).1 := by
  unfold bodyLine
  split
  · split
    · split
      · exact .refl s
      · split
        · exact .refl s
        · unfold lineJudged
          split
          · exact .refl s
          · split
            · exact done_worked (setLine_worked s _ _).atOnce
            · exact .refl s
    · exact .refl s
  · exact .refl s

theorem bodyCircuit_worked : Worked s (bodyCircuit ops s).1 := by
  unfold bodyCircuit
  split
  · split
    · next formed =>
      unfold circuitJudged
      split
      · exact .refl s
      · split
        · split
          · next stopped => exact done_worked (setCircuit_worked stopped (circuitForms_fits formed).1).atOnce
          · exact .refl s
        · exact .refl s
    · exact .refl s
  · exact .refl s

theorem bodyReportto_worked : Worked s (bodyReportto ops s).1 := by
  unfold bodyReportto
  split
  · split
    · exact .refl s
    · split
      · exact .refl s
      · exact done_worked (moveReports_worked s _).atOnce
  · exact .refl s

theorem bodyHold_worked : Worked s (bodyHold ops s).1 := by
  unfold bodyHold
  repeat' split
  all_goals exact .other rfl rfl

theorem bodyUnhold_worked : Worked s (bodyUnhold ops s).1 := withStory_worked ops fun _ => .other rfl rfl

theorem bodyUnholdall_worked : Worked s (bodyUnholdall ops s).1 := bare_worked ops (.other rfl rfl)

theorem bodyStory_worked : Worked s (bodyStory ops s).1 := withStory_worked ops fun _ => .refl s

theorem bodyWithdraw_worked : Worked s (bodyWithdraw ops s).1 := withStory_worked ops fun n => withdrawStory_worked s n

theorem bodyClearunheld_worked : Worked s (bodyClearunheld ops s).1 := bare_worked ops (.other rfl rfl)

theorem bodyClearstore_worked : Worked s (bodyClearstore ops s).1 := bare_worked ops (clearStore_worked s)

theorem repeatPair_worked (n : SlotNo) (cls : Class) (a : Repeating) (p : TakeNo × CircuitNo) :
    Worked a.state (repeatPair n cls a p).state := by
  have gap : Worked a.state (inGap takenBeforeTurn a.state) := inGap_worked takenBeforeTurn_worked _
  unfold repeatPair repeatTurn
  dsimp only
  split
  · exact gap
  · split
    · exact gap
    · split
      · exact gap.trans (makeFree_worked _ p.2 n _)
      · exact gap.trans (raise_worked _ _ _)

theorem repeatPairs_worked (n : SlotNo) (cls : Class) (ps : List (TakeNo × CircuitNo)) (a : Repeating) :
    Worked a.state (ps.foldl (repeatPair n cls) a).state := by
  induction ps generalizing a with
  | nil => exact .refl _
  | cons p ps ih => exact .trans (repeatPair_worked n cls a p) (ih _)

theorem bodyRepeat_worked : Worked s (bodyRepeat ops s).1 := by
  unfold bodyRepeat
  split
  · exact .refl s
  · split
    · split
      · exact .refl s
      · split
        · exact .refl s
        · next n _ =>
          have made (cls ps) := repeatPairs_worked n cls ps { state := s, queued := 0, unmade := 0 }
          exact done_worked (Worked.before (made _ _) (slotToFront_circuits _ n) (slotToFront_resetLow _ n)).atOnce
    · exact .refl s

end Requests

/-! ### Every command -/

theorem waitExpires_worked (n : SlotNo) (t : TakeNo) (s : State) : Worked s (waitExpires n t s) := by
  unfold waitExpires
  split
  · exact expireWait_worked s n t
  · exact .refl s

theorem executionEnds_worked (s : State) : Worked s (executionEnds s) := by
  have restarted : Worked s (if s.mgmt.restartDue then restart s else s) := by
    split
    · exact restart_worked s
    · exact .refl s
  unfold executionEnds
  split
  · dsimp only
    split
    · exact (restarted.trans (placeReply_worked _ _)).trans (modMgmt_worked _ _)
    · exact restarted.trans (modMgmt_worked _ _)
  · exact .refl s

theorem runEvent_worked {f : State → State} {s u : State} (h : Worked s (f s)) (e : runEvent f s = .next u) : Worked s u := by
  unfold runEvent at e
  split at e <;> cases e
  · exact .refl s
  · exact h.atOnce

theorem runBareEvent_worked {f : State → State} {s u : State} (h : Worked s (f s)) (e : runBareEvent f s = .next u) :
    Worked s u := by
  unfold runBareEvent at e
  split at e <;> cases e
  · exact .refl s
  · exact h

theorem runRequest_worked {verb : String} {lvl : State → Nat} {body : State → State × Answer} {ops : List Text}
    {s u : State} (h : ∀ s, Worked s (body s).1) (e : runRequest verb lvl body ops s = .next u) : Worked s u := by
  have judged : Worked (popLine s) (judge (lvl s) body (popLine s)).1 := by
    unfold judge
    split
    · exact (raiseStanding_worked _).atOnce
    · exact h _
  unfold runRequest at e
  split at e <;> cases e
  · exact ((modMgmt_worked s _).trans judged).trans (modMgmt_worked _ _)
  · exact .refl s

theorem exec_worked (i : Instr) {s u : State} (h : exec i s = .next u) : Worked s u := by
  cases i with
  | resetAsserted => cases h; exact .asserted s
  | resetReleased => cases h; exact pinReset_worked s
  | characterArrives l v m => exact runEvent_worked (characterArrives_worked s l v m) h
  | breakWatchExpires l => exact runEvent_worked (breakBegins_worked s l) h
  | markingIntervalExpires l => exact runBareEvent_worked (breakEnds_worked s l) h
  | silenceTimerExpires l => exact runEvent_worked (lineSilent_worked s l) h
  | unknownRequest v ops =>
    change execUnknownRequest v ops s = _ at h
    unfold execUnknownRequest at h
    split at h <;> cases h <;> exact .other rfl rfl
  | line ops => exact runRequest_worked (lvl := fun _ => 3) (bodyLine_worked ops) h
  | linebank ops => exact runRequest_worked (lvl := fun _ => 2) (bodyLinebank_worked ops) h
  | circuit ops => exact runRequest_worked (lvl := fun _ => 3) (bodyCircuit_worked ops) h
  | bankkind ops => exact runRequest_worked (lvl := fun _ => 3) (bodyBankkind_worked ops) h
  | bankin ops => exact runRequest_worked (lvl := fun _ => 3) (bodyBankin_worked ops) h
  | bankout ops => exact runRequest_worked (lvl := fun _ => 3) (bodyBankout_worked ops) h
  | banksub ops => exact runRequest_worked (lvl := fun _ => 3) (bodyBanksub_worked ops) h
  | bankshift ops => exact runRequest_worked (lvl := fun _ => 3) (bodyBankshift_worked ops) h
  | route ops => exact runRequest_worked (bodyRoute_worked ops) h
  | routeoff ops => exact runRequest_worked (bodyRouteoff_worked ops) h
  | mark ops => exact runRequest_worked (fun s => membership_worked ops s _) h
  | unmark ops => exact runRequest_worked (fun s => membership_worked ops s _) h
  | flip ops => exact runRequest_worked (fun s => membership_worked ops s _) h
  | test ops => exact runRequest_worked (lvl := fun _ => 1) (fun s => membership_worked ops s _) h
  | defaults ops => exact runRequest_worked (lvl := fun _ => 2) (bodyDefaults_worked ops) h
  | flashset ops => exact runRequest_worked (lvl := fun _ => 2) (bodyFlashset_worked ops) h
  | precedence ops => exact runRequest_worked (lvl := fun _ => 3) (bodyPrecedence_worked ops) h
  | queue ops => exact runRequest_worked (lvl := fun _ => 1) (bodyQueue_worked ops) h
  | hold ops => exact runRequest_worked (lvl := fun _ => 1) (bodyHold_worked ops) h
  | unhold ops => exact runRequest_worked (lvl := fun _ => 1) (bodyUnhold_worked ops) h
  | unholdall ops => exact runRequest_worked (lvl := fun _ => 2) (bodyUnholdall_worked ops) h
  | repeatTakes ops => exact runRequest_worked (lvl := fun _ => 1) (bodyRepeat_worked ops) h
  | withdraw ops => exact runRequest_worked (lvl := fun _ => 2) (bodyWithdraw_worked ops) h
  | clearunheld ops => exact runRequest_worked (lvl := fun _ => 3) (bodyClearunheld_worked ops) h
  | clearstore ops => exact runRequest_worked (lvl := fun _ => 3) (bodyClearstore_worked ops) h
  | takewait ops => exact runRequest_worked (lvl := fun _ => 3) (bodyTakewait_worked ops) h
  | story ops => exact runRequest_worked (lvl := fun _ => 1) (bodyStory_worked ops) h
  | reportto ops => exact runRequest_worked (lvl := fun _ => 3) (bodyReportto_worked ops) h
  | status ops => exact runRequest_worked (lvl := fun _ => 1) (bodyStatus_worked ops) h
  | quiet ops => exact runRequest_worked (lvl := fun _ => 2) (bodyQuiet_worked ops) h
  | wake ops => exact runRequest_worked (lvl := fun _ => 2) (bodyWake_worked ops) h
  | full ops => exact runRequest_worked (lvl := fun _ => 2) (bodyFull_worked ops) h
  | reduced ops => exact runRequest_worked (lvl := fun _ => 2) (bodyReduced_worked ops) h
  | restart ops => exact runRequest_worked (lvl := fun _ => 3) (bodyRestart_worked ops) h
  | events ops => exact runRequest_worked (lvl := fun _ => 1) (bodyEvents_worked ops) h
  | clearevent ops => exact runRequest_worked (lvl := fun _ => 2) (bodyClearevent_worked ops) h
  | mask ops => exact runRequest_worked (lvl := fun _ => 2) (bodyMask_worked ops) h
  | alerts ops => exact runRequest_worked (lvl := fun _ => 2) (bodyAlerts_worked ops) h
  | counts ops => exact runRequest_worked (lvl := fun _ => 1) (bodyCounts_worked ops) h
  | clearcounts ops => exact runRequest_worked (lvl := fun _ => 2) (bodyClearcounts_worked ops) h
  | executionEnds => exact runEvent_worked (executionEnds_worked s) h
  | waitTimerExpires n t => exact runEvent_worked (waitExpires_worked n t s) h
  | secondAgeing => exact runBareEvent_worked (ageQueues_worked s) h
  | motorStartTimerExpires c => exact runEvent_worked (.ready c s) h
  | runOnTimerExpires c => exact runBareEvent_worked (runOnEnds_worked c s) h
  | characterSent c => exact runEvent_worked (f := fun t => charSent t c) (charSent_worked s c) h
  | markToSpaceTransition l => cases h; exact modLine_worked s l _
  | spaceToMarkTransition l => cases h; exact modLine_worked s l _
  | falseStart l => exact runBareEvent_worked (falseStart_worked s l) h

/-- Whatever the command, a step does no more to the circuits than the operations of `Worked`. -/
theorem step_worked {s u : State} (h : step s = .next u) : Worked s u := by
  unfold step at h
  split at h
  · cases h
    exact .refl s
  · exact (exec_worked _ h).after rfl rfl

end Sys2Proof.Machine
/-! ## Suspension chains (O56) -/

namespace Sys2Proof.Machine

open Sys2Proof

/-! ### Chains by their classes (R118, R148) -/

theorem higher_flash {k : Class} (h : k ≠ .flash) : higher .flash k = true := by
  cases k with
  | flash => exact absurd rfl h
  | bulletin => rfl
  | urgent => rfl
  | routine => rfl
  | deferred => rfl

theorem higher_irrefl (k : Class) : higher k k = false := decide_eq_false (lt_irrefl _)

theorem ne_flash_of_below_bulletin {k : Class} (h : higher .bulletin k = true) : k ≠ .flash := by
  rintro rfl
  exact absurd h (by decide)

/-- R148: no FLASH is suspended, and over a suspended record only a BULLETIN, the lower one not being one. -/
def ChainClasses (ks : List Class) : Prop :=
  (∀ k ∈ ks, k ≠ .flash) ∧ ks.Pairwise fun a b => b = .bulletin ∧ higher .bulletin a = true

theorem ChainClasses.sublist {ks js : List Class} (h : ChainClasses ks) (sub : js.Sublist ks) : ChainClasses js :=
  ⟨fun k mem => h.1 k (sub.subset mem), h.2.sublist sub⟩

theorem chainSound_iff (l : List Rec) : chainSound l = true ↔ ChainClasses (l.map Rec.cls) := by
  match l with
  | [] => simp [chainSound, ChainClasses]
  | [r] =>
    simp only [chainSound, ChainClasses, List.map_cons, List.map_nil, List.forall_mem_singleton, List.pairwise_singleton,
      and_true]
    exact ⟨fun h e => absurd (e ▸ h) (by decide), higher_flash⟩
  | [r, t] =>
    simp only [chainSound, ChainClasses, List.map_cons, List.map_nil, List.forall_mem_cons,
      List.pairwise_pair, Bool.and_eq_true, decide_eq_true_eq]
    exact ⟨fun h => ⟨⟨ne_flash_of_below_bulletin h.2, fun e => (nomatch h.1.symm.trans e : False), nofun⟩, h⟩, And.right⟩
  | r :: t :: u :: l =>
    refine ⟨nofun, fun ⟨_, pairs⟩ => ?_⟩
    obtain ⟨first, rest⟩ := List.pairwise_cons.mp pairs
    have upper := (first t.cls (by simp)).1
    have below := ((List.pairwise_cons.mp rest).1 u.cls (by simp)).2
    rw [upper, higher_irrefl] at below
    cases below

/-- What is carried stands above suspended records of these classes. -/
def Carried.Above (a : Carried) (ks : List Class) : Prop :=
  ∀ r, a = .record r → ∀ k ∈ ks, (r.cls = .flash ∨ r.cls = .bulletin) ∧ higher r.cls k = true

/-- R148 for one circuit. -/
structure Circuit.Ordered (x : Circuit) : Prop where
  chain : ChainClasses (x.sender.chain.map Rec.cls)
  carried : x.sender.carried.Above (x.sender.chain.map Rec.cls)

theorem above_flash {r : Rec} {ks : List Class} (flash : r.cls = .flash) (none : ∀ k ∈ ks, k ≠ .flash) :
    (Carried.record r).Above ks := by
  rintro r' e k mem
  obtain rfl := Carried.record.inj e
  exact ⟨.inl flash, flash ▸ higher_flash (none k mem)⟩

/-- What is above the top of a chain is above the chain. -/
theorem above_of_top {l : List Rec} {r t : Rec} (chain : ChainClasses (l.map Rec.cls)) (top : l.getLast? = some t)
    (kind : r.cls = .flash ∨ r.cls = .bulletin) (above : higher r.cls t.cls = true) :
    (Carried.record r).Above (l.map Rec.cls) := by
  obtain flash | bulletin := kind
  · exact above_flash flash chain.1
  · obtain ⟨l', rfl⟩ : ∃ l', l = l' ++ [t] := ⟨l.dropLast, (List.dropLast_append_getLast? t top).symm⟩
    rintro r' e k mem
    obtain rfl := Carried.record.inj e
    rw [List.map_append, List.mem_append] at mem
    obtain lower | top := mem
    · obtain ⟨-, pairs⟩ := chain
      rw [List.map_append, List.pairwise_append] at pairs
      have upper := (pairs.2.2 k lower t.cls (by simp)).1
      rw [bulletin, upper, higher_irrefl] at above
      cases above
    · obtain rfl : k = t.cls := by simpa using top
      exact ⟨.inr bulletin, above⟩

theorem chainsSound_iff (s : State) : ChainsSound s ↔ ∀ c : CircuitNo, s.circuits[c].Ordered := by
  refine forall_congr' fun c => ?_
  rw [chainSound_iff]
  refine ⟨fun ⟨chain, carried⟩ => ⟨chain, fun r e k mem => ?_⟩, fun ⟨chain, carried⟩ => ⟨chain, fun r t e top => ?_⟩⟩
  · obtain ⟨x, here, -⟩ := List.mem_map.mp mem
    obtain ⟨t, top⟩ : ∃ t, s.circuits[c].sender.chain.getLast? = some t :=
      ⟨_, List.getLast?_eq_some_getLast (List.ne_nil_of_mem here)⟩
    obtain ⟨kind, above⟩ := carried r t e top
    exact above_of_top chain top kind above r rfl k mem
  · exact carried r e t.cls (List.mem_map_of_mem (List.mem_of_getLast? top))

/-! ### What keeps a circuit's chain in order -/

theorem Carried.Alike.above {a b : Carried} (alike : a.Alike b) {ks : List Class} (h : a.Above ks) : b.Above ks := by
  cases alike with
  | same => exact h
  | @record r r' cls =>
    rintro r'' e
    obtain rfl := Carried.record.inj e
    rw [cls]
    exact h r rfl

theorem above_nothing {a : Carried} (nothing : a = .nothing) (ks : List Class) : a.Above ks := by
  rintro r e
  exact nomatch nothing.symm.trans e

theorem Circuit.Ordered.sublist {x y : Circuit} (h : x.Ordered)
    (chain : (y.sender.chain.map Rec.cls).Sublist (x.sender.chain.map Rec.cls))
    (carried : y.sender.carried = .nothing ∨ x.sender.carried.Alike y.sender.carried) : y.Ordered := by
  refine ⟨h.chain.sublist chain, ?_⟩
  obtain nothing | alike := carried
  · exact above_nothing nothing _
  · exact fun r e k mem => alike.above h.carried r e k (chain.subset mem)

theorem Circuit.Ordered.of_sender {x y : Circuit} (h : x.Ordered) (chain : y.sender.chain = x.sender.chain)
    (carried : y.sender.carried = .nothing ∨ y.sender.carried = x.sender.carried) : y.Ordered :=
  h.sublist (chain ▸ .refl _) (carried.imp_right fun same => by rw [same]; exact .same _)

theorem Circuit.Eases.ordered {x y : Circuit} (eases : x.Eases y) (h : x.Ordered) : y.Ordered := by
  cases eases with
  | continues k => exact h.sublist k.chain (.inr k.carried)
  | halts k => exact h.sublist k.chain (.inl k.carried)
  | closes => exact h.of_sender rfl (.inr rfl)
  | described => exact h.of_sender rfl (.inr rfl)

theorem Circuit.Rests.ordered {g : Sending} {x y : Circuit} (rests : x.Rests g y) (h : x.Ordered) : y.Ordered :=
  h.sublist (rests.chain ▸ .refl _) rests.carried

/-! ### Selections and breaks (R120, R148) -/

section Selections

variable {s : State} {c : CircuitNo}

/-- R119, R120: over a suspended record only its breaker is started, or a FLASH. -/
theorem choose_start_over {i : Nat} {b t : Rec} (chosen : choose s c = .start i)
    (queued : s.circuits[c].queue[i]? = some b) (top : s.circuits[c].sender.chain.getLast? = some t) :
    b.cls = .flash ∨ breaksInto s.circuits[c].desc.bulletinBreak b.cls t.cls = true := by
  simp only [choose, top] at chosen
  split at chosen
  · next found =>
    cases chosen
    exact .inr (breakerFor_breaks found queued)
  · split at chosen
    · cases chosen
    · next withheld =>
      obtain report | ⟨j, v, best, start⟩ | nothing := selectBelowChain_cases s c
      · exact nomatch report.symm.trans chosen
      · obtain rfl : j = i := Selection.start.inj (start.symm.trans chosen)
        have may : eligible (degreeOf s c) b.cls = true := highest_good best queued
        cases degree : degreeOf s c with
        | notWithheld => exact absurd degree withheld
        | exceptFlash => exact .inl (of_decide_eq_true (degree ▸ may :))
        | wholly => exact nomatch (degree ▸ may : eligible .wholly b.cls = true)
      · exact nomatch nothing.symm.trans chosen

/-- R118: a record that breaks in is above the one it breaks into. -/
theorem breaksInto_above {opt : Bool} {b r : Class} (into : breaksInto opt b r = true) :
    (b = .flash ∨ b = .bulletin) ∧ higher b r = true ∧ r ≠ .flash := by
  obtain ⟨rfl, other⟩ | ⟨rfl, below, -⟩ := (breaksInto_iff opt b r).mp into
  · exact ⟨.inl rfl, higher_flash other, other⟩
  · obtain rfl | rfl | rfl := below
    · exact ⟨.inr rfl, rfl, nofun⟩
    · exact ⟨.inr rfl, rfl, nofun⟩
    · exact ⟨.inr rfl, rfl, nofun⟩

/-- What a selection takes up stands above the chain, whatever was carried before. -/
theorem TookUp.ordered {y : Circuit} (took : TookUp s c s.circuits[c] y)
    (chain : ChainClasses (s.circuits[c].sender.chain.map Rec.cls)) : y.Ordered := by
  unfold TookUp at took
  split at took
  · next i chosen =>
    obtain ⟨b, queued, carried, -, same⟩ := took
    refine ⟨same ▸ chain, ?_⟩
    rw [carried, same]
    cases top : s.circuits[c].sender.chain.getLast? with
    | none =>
      rw [List.getLast?_eq_none_iff.mp top]
      exact fun _ _ k mem => nomatch mem
    | some t =>
      obtain flash | into := choose_start_over chosen queued top
      · exact above_flash flash chain.1
      · obtain ⟨kind, above, -⟩ := breaksInto_above into
        exact above_of_top chain top kind above
  · next r _ =>
    obtain ⟨carried, -, split⟩ := took
    rw [split, List.map_append] at chain
    refine ⟨chain.sublist (List.sublist_append_left ..), ?_⟩
    rw [carried]
    rintro r' e k mem
    obtain rfl := Carried.record.inj e
    obtain ⟨bulletin, above⟩ := (List.pairwise_append.mp chain.2).2.2 k mem r.cls (by simp)
    exact ⟨.inr bulletin, bulletin ▸ above⟩
  · obtain ⟨carried, -, -, same⟩ := took
    refine ⟨same ▸ chain, fun r e => ?_⟩
    exact nomatch carried.symm.trans e
  · exact took.elim

theorem enterPausing_sender (s : State) (c : CircuitNo) : (enterPausing s c).circuits[c].sender.carried = .nothing ∧
    (enterPausing s c).circuits[c].sender.chain = s.circuits[c].sender.chain := by
  unfold enterPausing
  dsimp only
  split
  all_goals
    rw [modSender_circuit]
    exact ⟨rfl, rfl⟩

theorem select_ordered (h : s.circuits[c].Ordered) : (select s c).circuits[c].Ordered := by
  cases work : hasWork s c with
  | true => exact (select_begun work).took.ordered h.chain
  | false =>
    have chosen : choose s c = .nothing := by simpa [hasWork] using work
    simp only [select, chosen]
    split
    · exact h
    · exact h.of_sender (enterPausing_sender s c).2 (.inl (enterPausing_sender s c).1)

theorem Offered.ordered {y : Circuit} (offered : Offered s c s.circuits[c] y) (h : s.circuits[c].Ordered) : y.Ordered := by
  unfold Offered at offered
  split at offered
  · split at offered
    · unfold Started at offered
      split at offered
      · exact offered.took.ordered h.chain
      · exact offered ▸ h.of_sender rfl (.inr rfl)
    · exact offered ▸ h
  · split at offered
    · exact offered.took.ordered h.chain
    · exact offered ▸ h
  · exact offered ▸ h

theorem takeNext_ordered (h : s.circuits[c].Ordered) : (takeNext s c).circuits[c].Ordered := by
  obtain ⟨y, same, circuit⟩ := takeNext_circuit s c
  rw [circuit]
  exact h.of_sender (congrArg Sender.chain same :) (.inr (congrArg Sender.carried same :))

/-- R148: what is broken into goes on top of the chain, and the breaker stands above it. -/
theorem makeBreak_ordered {r b : Rec} {i : Nat} (h : s.circuits[c].Ordered)
    (carried : s.circuits[c].sender.carried = .record r)
    (into : breaksInto s.circuits[c].desc.bulletinBreak b.cls r.cls = true) : (makeBreak s c r i b).circuits[c].Ordered := by
  obtain ⟨kind, above, common⟩ := breaksInto_above into
  let l := s.circuits[c].sender.chain ++ [suspended s.circuits[c].sender r]
  let a := modQueue (modSender s c fun x =>
    { x with chain := x.chain ++ [suspended x r], breaksIn := count x.breaksIn }) c fun q => withoutAt q i
  obtain ⟨y, begins, circuit⟩ := carryRecord_circuit a c b true
  have chained : y.chain = l := begins.chain.trans (by rw [modQueue_circuit, modSender_circuit])
  have chain : ChainClasses (l.map Rec.cls) := by
    have top : l.map Rec.cls = s.circuits[c].sender.chain.map Rec.cls ++ [r.cls] := List.map_append
    rw [top]
    refine ⟨fun k mem => ?_, List.pairwise_append.mpr ⟨h.chain.2, List.pairwise_singleton _ _, fun k mem j last => ?_⟩⟩
    · obtain lower | last := List.mem_append.mp mem
      · exact h.chain.1 k lower
      · exact List.mem_singleton.mp last ▸ common
    · obtain rfl := List.mem_singleton.mp last
      obtain ⟨kind, above⟩ := h.carried r carried k mem
      have bulletin := kind.resolve_left common
      exact ⟨bulletin, bulletin ▸ above⟩
  have eq : (makeBreak s c r i b).circuits[c] = { a.circuits[c] with sender := y } := circuit
  rw [eq]
  refine ⟨chained ▸ chain, ?_⟩
  rw [begins.carried, chained]
  exact above_of_top (t := suspended s.circuits[c].sender r) chain List.getLast?_concat kind above

theorem SentEnds.ordered {u : State} (ends : SentEnds c s u) (h : s.circuits[c].Ordered) : u.circuits[c].Ordered := by
  cases ends with
  | rests => exact h
  | goesOn => exact takeNext_ordered h
  | selects => exact select_ordered h
  | pauses => exact h.of_sender (enterPausing_sender s c).2 (.inl (enterPausing_sender s c).1)
  | breaks carried _ into => exact makeBreak_ordered h carried into

theorem SentEnds.only {u : State} (ends : SentEnds c s u) : OnlyCircuit c s u := by
  cases ends with
  | rests => exact .refl c s
  | goesOn => exact takeNext_only s c
  | selects => exact select_only s c
  | pauses => exact enterPausing_only s c
  | breaks => exact makeBreak_only s c _ _ _

end Selections

/-! ### Every step -/

/-- The circuits are in order if the one that may have changed is. -/
theorem forall_circuits {P : Circuit → Prop} {s u : State} {c : CircuitNo}
    (others : ∀ d : CircuitNo, d ≠ c → u.circuits[d] = s.circuits[d]) (h : ∀ d : CircuitNo, P s.circuits[d])
    (one : P u.circuits[c]) (d : CircuitNo) : P u.circuits[d] := by
  by_cases e : d = c
  · exact e ▸ one
  · exact others d e ▸ h d

theorem Worked.ordered {s u : State} (worked : Worked s u) (h : ∀ c : CircuitNo, s.circuits[c].Ordered) :
    ∀ c : CircuitNo, u.circuits[c].Ordered := by
  induction worked with
  | eased _ each => exact fun c => (each c).ordered (h c)
  | halted each => exact fun c => (Circuit.Eases.halts (each c)).ordered (h c)
  | asserted s =>
    intro c
    rw [mapAll_get]
    exact (h c).of_sender rfl (.inr rfl)
  | offered s c => exact forall_circuits (fun d => (offer_only s c).other) h ((offer_offered s c).ordered (h c))
  | ready c s =>
    refine forall_circuits (fun d => (motorReady_only c s).other) h ?_
    unfold motorReady
    split
    · refine select_ordered ?_
      rw [modSender_circuit]
      exact (h c).of_sender rfl (.inr rfl)
    · exact h c
  | sent _ _ others rests _ _ ends ih =>
    have after := ih (forall_circuits others h (rests.ordered (h _)))
    exact forall_circuits (fun d => ends.only.other) after (ends.ordered (after _))
  | trans _ _ first second => exact second (first h)

/-- Settles O56: whatever a step does to the circuits, what is carried stays above the chain, and the chain in order. -/
theorem chainsStayOrdered : Obligations.ChainsStayOrdered := by
  unfold Obligations.ChainsStayOrdered
  exact fun s t sound h => (chainsSound_iff t).mpr ((step_worked h).ordered ((chainsSound_iff s).mp sound))

end Sys2Proof.Machine
/-! ## Columns, motors and timers (O57) -/

namespace Sys2Proof.Machine

open Sys2Proof

/-! ### A sender about to begin or to pause (R132, R138) -/

/-- The column is on the carriage, and the motor runs unless the reset input is held low. -/
structure Circuit.Runs (low : Bool) (x : Circuit) : Prop where
  carriage : 20 ≤ x.desc.carriage
  column : x.sender.column ≤ x.desc.carriage
  motor : low = false → x.sender.motor = true

theorem SenderSound.runs {low : Bool} {x : Circuit} (sound : SenderSound low x) (running : x.sender.state ≠ .stopped) :
    x.Runs low where
  carriage := sound.carriage
  column := sound.column
  motor high := (sound.motor high).trans (decide_eq_true running)

/-- A sender that sends carries something. -/
theorem SenderSound.busy {low : Bool} {x : Circuit} {g : Sending} (sound : SenderSound low x)
    (sending : x.sender.sending = some g) : x.sender.Busy := by
  by_cases carrying : x.sender.state = .carrying
  · exact .inl carrying
  · by_cases closing : x.sender.state = .closing
    · exact .inr closing
    · exact nomatch (sound.idle carrying closing).2.1.symm.trans sending

/-- A circuit whose sender carries something, with nothing being sent yet. -/
theorem SenderSound.of_busy {low : Bool} {x : Circuit} (runs : x.Runs low) (busy : x.sender.Busy)
    (sending : x.sender.sending = none) (timers : x.sender.motorTimer = none ∧ x.sender.runOnTimer = none) :
    SenderSound low x where
  carriage := runs.carriage
  column := runs.column
  room _ e := nomatch sending.symm.trans e
  idle carrying closing := absurd busy (not_or.mpr ⟨carrying, closing⟩)
  motor high := (runs.motor high).trans (decide_eq_true (by obtain e | e := busy <;> rw [e] <;> exact nofun)).symm
  stopped e := by obtain e' | e' := busy <;> exact nomatch e'.symm.trans e
  timers := by obtain e | e := busy <;> simp [timers, e]

section Senders

variable {s : State} {c : CircuitNo} {low : Bool}

/-- R138: an advancing character is taken only where the column leaves room for it. -/
theorem takeNext_sound (sound : SenderSound low s.circuits[c]) (busy : s.circuits[c].sender.Busy) :
    SenderSound low (takeNext s c).circuits[c] := by
  have taken {h : House} {y : Sender} (same : untaken y = untaken s.circuits[c].sender)
      (room : isAdvancing h = true → s.circuits[c].sender.column < s.circuits[c].desc.carriage) :
      SenderSound low (modSender s c fun _ => sendChar s c h y).circuits[c] := by
    have state : (sendChar s c h y).state = s.circuits[c].sender.state := (congrArg Sender.state same :)
    have motor : (sendChar s c h y).motor = s.circuits[c].sender.motor := (congrArg Sender.motor same :)
    have column : (sendChar s c h y).column = s.circuits[c].sender.column := (congrArg Sender.column same :)
    have motorTimer : (sendChar s c h y).motorTimer = s.circuits[c].sender.motorTimer := (congrArg Sender.motorTimer same :)
    have runOn : (sendChar s c h y).runOnTimer = s.circuits[c].sender.runOnTimer := (congrArg Sender.runOnTimer same :)
    rw [modSender_circuit]
    constructor <;> dsimp only
    · exact sound.carriage
    · exact column ▸ sound.column
    · rintro g e
      obtain rfl := Option.some.inj e
      exact column ▸ room
    · rw [state]
      exact fun carrying closing => absurd busy (not_or.mpr ⟨carrying, closing⟩)
    · rw [state, motor]
      exact sound.motor
    · rw [state, motor]
      exact sound.stopped
    · rw [state, motorTimer, runOn]
      exact sound.timers
  unfold takeNext
  dsimp only
  split
  · exact sound
  · next h y next =>
    split
    · exact taken rfl fun advancing => absurd advancing (by decide)
    · next fits => exact taken (nextChar_untaken next) fun advancing => sound.column.lt_of_ne fun e => fits ⟨advancing, e⟩

theorem beginRecord_sending (s : State) (r : Rec) (b : Bool) (x : Sender) : (beginRecord s r b x).sending = none := by
  unfold beginRecord
  dsimp only
  split
  · rfl
  · split <;> rfl

theorem carryRecord_sound (runs : s.circuits[c].Runs low) (r : Rec) (b : Bool) :
    SenderSound low (carryRecord s c r b).circuits[c] := by
  let z := settlePhase (readVersion s r) (beginRecord s r b s.circuits[c].sender)
  have begins : BeginsWith r s.circuits[c].sender z :=
    (beginRecord_begins s r b _).of_unsettled (settlePhase_unsettled _ _)
  have column : z.column = s.circuits[c].sender.column :=
    (settlePhase_column _ _).trans (beginRecord_column s r b s.circuits[c].sender)
  have sending : z.sending = none := (settlePhase_sending _ _).trans (beginRecord_sending s r b s.circuits[c].sender)
  let a := modSender s c fun x => settlePhase (readVersion s r) (beginRecord s r b x)
  have circuit : a.circuits[c] = { s.circuits[c] with sender := z } := modSender_circuit s c _
  have busy : a.circuits[c].sender.Busy := by
    rw [circuit]
    exact .inl begins.state
  refine takeNext_sound (s := a) (.of_busy ?_ busy ?_ ?_) busy
  all_goals rw [circuit]
  · exact ⟨runs.carriage, column.trans_le runs.column, fun high => begins.motor.trans (runs.motor high)⟩
  · exact sending
  · exact begins.timers

theorem carryReport_sound (runs : s.circuits[c].Runs low) : SenderSound low (carryReport s c).circuits[c] := by
  let f : Sender → Sender := fun x =>
    { x.bare with state := .carrying, motorTimer := none, runOnTimer := none, carried := .report, phase := .report }
  have circuit : (modSender s c f).circuits[c] = { s.circuits[c] with sender := f s.circuits[c].sender } :=
    modSender_circuit s c _
  have busy : (modSender s c f).circuits[c].sender.Busy := by
    rw [circuit]
    exact .inl rfl
  refine takeNext_sound (s := modSender s c f) (.of_busy ?_ busy ?_ ?_) busy
  all_goals rw [circuit]
  · exact ⟨runs.carriage, runs.column, runs.motor⟩
  · rfl
  · exact ⟨rfl, rfl⟩

/-- R132: a sender that has stopped. -/
theorem Circuit.Halts.sound {x y : Circuit} (halts : x.Halts y) (carriage : 20 ≤ x.desc.carriage) : SenderSound low y where
  carriage := halts.carriage carriage
  column := halts.column ▸ Nat.zero_le _
  room _ e := nomatch halts.sending.symm.trans e
  idle _ _ := ⟨halts.carried, halts.sending, halts.column⟩
  motor _ := halts.motor.trans (by rw [halts.state]; rfl)
  stopped _ := halts.motor
  timers := by simp [halts.timers, halts.state]

theorem enterPausing_sound (runs : s.circuits[c].Runs low) : SenderSound low (enterPausing s c).circuits[c] := by
  unfold enterPausing
  dsimp only
  split
  · rw [modSender_circuit]
    exact (halted_halts _).sound runs.carriage
  · rw [modSender_circuit]
    exact
      { carriage := runs.carriage
        column := Nat.zero_le _
        room := nofun
        idle := fun _ _ => ⟨rfl, rfl, rfl⟩
        motor := runs.motor
        stopped := nofun
        timers := ⟨rfl, rfl⟩ }

/-- A selection made where it is asked for: by a sender that is PAUSING, or one whose motor has just started or whose last
delivery has ended. -/
theorem select_sound (runs : s.circuits[c].Runs low)
    (pausing : s.circuits[c].sender.state = .pausing → SenderSound low s.circuits[c]) :
    SenderSound low (select s c).circuits[c] := by
  unfold select
  split
  · next i chosen =>
    obtain ⟨r, queued⟩ := choose_start chosen
    rw [queued]
    refine carryRecord_sound ?_ r false
    rw [modQueue_circuit]
    exact ⟨runs.carriage, runs.column, runs.motor⟩
  · next r _ =>
    refine carryRecord_sound ?_ r false
    rw [modSender_circuit]
    exact ⟨runs.carriage, runs.column, runs.motor⟩
  · exact carryReport_sound runs
  · split
    · next state => exact pausing state
    · exact enterPausing_sound runs

theorem enterStarting_sound (sound : SenderSound low s.circuits[c]) (state : s.circuits[c].sender.state = .stopped) :
    SenderSound low (enterStarting s c).circuits[c] := by
  have idle := sound.idle (by rw [state]; exact nofun) (by rw [state]; exact nofun)
  have timers := sound.timers
  unfold enterStarting
  dsimp only
  split
  · refine select_sound ?_ fun pausing => ?_
    · rw [modSender_circuit, modSender_circuit]
      exact ⟨sound.carriage, sound.column, fun _ => rfl⟩
    · rw [modSender_circuit, modSender_circuit] at pausing
      cases pausing
  · rw [modSender_circuit]
    rw [state] at timers
    exact
      { carriage := sound.carriage
        column := sound.column
        room := sound.room
        idle := fun _ _ => idle
        motor := fun _ => rfl
        stopped := nofun
        timers := ⟨rfl, timers.2⟩ }

theorem offer_sound (sound : SenderSound low s.circuits[c]) : SenderSound low (offer s c).circuits[c] := by
  unfold offer
  split
  · next state =>
    unfold workTest
    split
    · exact enterStarting_sound sound state
    · exact sound
  · next state => exact select_sound (sound.runs (by rw [state]; exact nofun)) fun _ => sound
  · exact sound

theorem motorReady_sound (sound : SenderSound low s.circuits[c]) : SenderSound low (motorReady c s).circuits[c] := by
  unfold motorReady
  split
  · next state =>
    have runs := sound.runs (by rw [state]; exact nofun)
    refine select_sound ?_ fun pausing => ?_
    · rw [modSender_circuit]
      exact ⟨runs.carriage, runs.column, runs.motor⟩
    · rw [modSender_circuit] at pausing
      exact nomatch pausing.symm.trans state
  · exact sound

theorem SentEnds.sound {u : State} (ends : SentEnds c s u) (sound : SenderSound low s.circuits[c])
    (busy : s.circuits[c].sender.Busy) : SenderSound low u.circuits[c] := by
  have runs := sound.runs (by obtain e | e := busy <;> rw [e] <;> exact nofun)
  cases ends with
  | rests => exact sound
  | goesOn => exact takeNext_sound sound busy
  | selects => exact select_sound runs fun _ => sound
  | pauses => exact enterPausing_sound runs
  | breaks =>
    refine carryRecord_sound ?_ _ true
    rw [modQueue_circuit, modSender_circuit]
    exact ⟨runs.carriage, runs.column, runs.motor⟩

end Senders

/-! ### Every step -/

theorem columnAfter_le {g : Sending} {x : Sender} {carriage : Nat} (column : x.column ≤ carriage)
    (room : isAdvancing g.char = true → x.column < carriage) : columnAfter g x ≤ carriage := by
  unfold columnAfter
  split
  · exact Nat.zero_le _
  · split
    · next advancing => exact room advancing
    · exact column

theorem Circuit.Rests.sound {low : Bool} {g : Sending} {x y : Circuit} (rests : x.Rests g y) (sound : SenderSound low x)
    (sending : x.sender.sending = some g) : SenderSound low y where
  carriage := rests.desc ▸ sound.carriage
  column := by
    rw [rests.column, rests.desc]
    exact columnAfter_le sound.column (sound.room g sending)
  room _ e := nomatch rests.sending.symm.trans e
  idle carrying closing := by
    rw [rests.state] at carrying closing
    exact absurd (sound.busy sending) (not_or.mpr ⟨carrying, closing⟩)
  motor := by rw [rests.motor, rests.state]; exact sound.motor
  stopped := by rw [rests.motor, rests.state]; exact sound.stopped
  timers := by rw [rests.timers.1, rests.timers.2, rests.state]; exact sound.timers

theorem Circuit.Continues.sound {low : Bool} {x y : Circuit} (h : x.Continues y) (sound : SenderSound low x) :
    SenderSound low y where
  carriage := h.desc ▸ sound.carriage
  column := by rw [h.column, h.desc]; exact sound.column
  room := by rw [h.sending, h.column, h.desc]; exact sound.room
  idle := by
    rw [h.state, h.sending, h.column]
    intro carrying closing
    obtain ⟨nothing, rest⟩ := sound.idle carrying closing
    have alike := h.carried
    rw [nothing] at alike
    generalize y.sender.carried = a at alike
    cases alike
    exact ⟨rfl, rest⟩
  motor := by rw [h.motor, h.state]; exact sound.motor
  stopped := by rw [h.motor, h.state]; exact sound.stopped
  timers := by rw [h.timers.1, h.timers.2, h.state]; exact sound.timers

theorem Circuit.Eases.sound {low : Bool} {x y : Circuit} (eases : x.Eases y) (sound : SenderSound low x) :
    SenderSound low y := by
  cases eases with
  | continues h => exact h.sound sound
  | halts h => exact h.sound sound.carriage
  | closes carrying =>
    have motor := sound.motor
    have timers := sound.timers
    rw [carrying] at motor timers
    exact
      { carriage := sound.carriage
        column := sound.column
        room := sound.room
        idle := fun _ closing => absurd rfl closing
        motor := motor
        stopped := nofun
        timers := timers }
  | described stopped carriage =>
    obtain ⟨nothing, sending, column⟩ := sound.idle (by rw [stopped]; exact nofun) (by rw [stopped]; exact nofun)
    exact
      { carriage := carriage
        column := column.trans_le (Nat.zero_le _)
        room := fun _ e => nomatch sending.symm.trans e
        idle := fun _ _ => ⟨nothing, sending, column⟩
        motor := sound.motor
        stopped := sound.stopped
        timers := sound.timers }

/-- R195: with the reset input held low every motor is off. -/
theorem SenderSound.asserted {low : Bool} {x : Circuit} (sound : SenderSound low x) :
    SenderSound true { x with sender := { x.sender with motor := false, sending := none } } where
  carriage := sound.carriage
  column := sound.column
  room := nofun
  idle carrying closing := ⟨(sound.idle carrying closing).1, rfl, (sound.idle carrying closing).2.2⟩
  motor := nofun
  stopped _ := rfl
  timers := sound.timers

/-- A change to one circuit keeps every sender sound if it keeps that one sound. -/
theorem SendersSound.only {s u : State} {c : CircuitNo} (h : SendersSound s) (only : OnlyCircuit c s u)
    (one : SenderSound s.resetLow u.circuits[c]) : SendersSound u := by
  unfold SendersSound
  rw [only.delivery.tables.resetLow]
  exact forall_circuits (fun d => only.other) h one

theorem Worked.sound {s u : State} (worked : Worked s u) (h : SendersSound s) : SendersSound u := by
  induction worked with
  | eased low each => exact fun c => low ▸ (each c).sound (h c)
  | halted each => exact fun c => (each c).sound (h c).carriage
  | asserted s =>
    intro c
    rw [mapAll_get]
    exact (h c).asserted
  | offered s c => exact h.only (offer_only s c) (offer_sound (h c))
  | ready c s => exact h.only (motorReady_only c s) (motorReady_sound (h c))
  | @sent s w v u c g sending low others rests _ busy ends ih =>
    have sent : SenderSound s.resetLow w.circuits[c] := rests.sound (h c) sending
    have stands : w.circuits[c].sender.Busy := by
      unfold Sender.Busy
      rw [rests.state]
      exact (h c).busy sending
    have before : SendersSound w := by
      unfold SendersSound
      rw [low]
      exact forall_circuits others h sent
    have after := ih before
    exact after.only ends.only (ends.sound (after c) (busy stands ▸ stands))
  | trans _ _ first second => exact second (first h)

/-- Settles O57: what a step does to the circuits leaves each column on its carriage, and each motor and timer as the
sender's state says. -/
theorem sendersStaySound : Obligations.SendersStaySound := by
  unfold Obligations.SendersStaySound
  exact fun s t sound h => (step_worked h).sound sound

end Sys2Proof.Machine
/-! ## CIRCUIT, and a circuit going out of service (O37)

R130, R131, R154. -/

namespace Sys2Proof.Machine

open Sys2Proof

/-! ### A circuit that no offer starts (R133) -/

/-- A STOPPED sender of a circuit that is not in service. -/
def Circuit.Barred (x : Circuit) : Prop := x.sender.state = .stopped ∧ circuitInService x = false

section Barred

variable {s : State} {c : CircuitNo} (barred : s.circuits[c].Barred)

include barred

theorem offer_barred (d : CircuitNo) : (offer s d).circuits[c] = s.circuits[c] := by
  by_cases e : c = d
  · subst e
    have idle : workTest s c = s := if_neg fun h => Bool.false_ne_true (barred.2.symm.trans h.2.1)
    simp only [offer, barred.1, idle]
  · exact (offer_only s d).other e

theorem alertDue_barred (k : EventKind) : (alertDue s k).circuits[c] = s.circuits[c] := by
  unfold alertDue
  split
  · exact offer_barred (s := modMgmt s _) barred _
  · rfl

theorem raise_barred (k : EventKind) (d : Detail) : (raise s k d).circuits[c] = s.circuits[c] := by
  unfold raise
  dsimp only
  split
  · rfl
  · split
    · exact alertDue_barred (s := modEntry s k _) barred k
    · rfl

theorem raiseMissed_barred (d : CircuitNo) (k : Option Key) : (raiseMissed s d k).circuits[c] = s.circuits[c] := by
  cases k with
  | none => rfl
  | some k => exact raise_barred barred _ _

end Barred

/-! ### What an occurrence leaves (R172, R181) -/

theorem raise_reports (s : State) (k : EventKind) (d : Detail) : s.mgmt.reports <+: (raise s k d).mgmt.reports := by
  unfold raise
  dsimp only
  split
  · exact ⟨[], List.append_nil _⟩
  · split
    · unfold alertDue
      split
      · rw [pushReport_mgmt]
        exact ⟨_, rfl⟩
      · exact ⟨[], List.append_nil _⟩
    · exact ⟨[], List.append_nil _⟩

theorem raise_quiet_circuits {s : State} (quiet : s.latch.alertMode = false) (k : EventKind) (d : Detail) :
    (raise s k d).circuits = s.circuits := by
  obtain ⟨f, entry⟩ := raise_quiet quiet k d
  rw [entry]
  rfl

theorem keyOfRecord_delivery {s u : State} (h : DeliveryOnly s u) (r : Rec) : keyOfRecord u r = keyOfRecord s r := by
  unfold keyOfRecord
  cases r.ref with
  | none => rfl
  | some f => exact (congrArg Slot.key (h.stories f.slot) :)

theorem returnRecord_mgmt (s : State) (r : Rec) : (returnRecord s r).mgmt = s.mgmt :=
  (congrArg State.mgmt (unnameIn_eq { s with freeCount := s.freeCount + 1 } r.ref) :)

theorem returnRecord_freeCount (s : State) (r : Rec) : (returnRecord s r).freeCount = s.freeCount + 1 :=
  unnameIn_freeCount { s with freeCount := s.freeCount + 1 } r.ref

/-! ### Records disposed of (R154 steps 3 and 4) -/

/-- Of the records of circuit `c`, `j` have returned to the pool, and occurrences of DELIVERY_MISSED may have reached the
latch. -/
structure Disposes (c : CircuitNo) (j : Nat) (s u : State) : Prop where
  delivery : DeliveryOnly s u
  freeCount : u.freeCount = s.freeCount + j
  reports : s.mgmt.reports <+: u.mgmt.reports
  latched : (entryOf s .deliveryMissed).latched = true → (entryOf u .deliveryMissed).latched = true
  quiet : s.latch.alertMode = false → ∀ e : CircuitNo, e ≠ c → u.circuits[e] = s.circuits[e]

theorem Disposes.trans {c : CircuitNo} {j k : Nat} {s t u : State} (h : Disposes c j s t) (g : Disposes c k t u) :
    Disposes c (j + k) s u where
  delivery := h.delivery.trans g.delivery
  freeCount := by rw [g.freeCount, h.freeCount, Nat.add_assoc]
  reports := h.reports.trans g.reports
  latched := g.latched ∘ h.latched
  quiet off e ne := (g.quiet (h.delivery.tables.alertMode.trans off) e ne).trans (h.quiet off e ne)

theorem OnlyCircuit.disposes {c : CircuitNo} {s u : State} (h : OnlyCircuit c s u) : Disposes c 0 s u where
  delivery := h.delivery
  freeCount := h.freeCount
  reports := by rw [h.mgmt]
  latched := by simp only [entryOf, h.latch, imp_self]
  quiet _ _ ne := h.other ne

theorem returnRecord_disposes (c : CircuitNo) (s : State) (r : Rec) : Disposes c 1 s (returnRecord s r) where
  delivery := returnRecord_delivery s r
  freeCount := returnRecord_freeCount s r
  reports := by rw [returnRecord_mgmt]
  latched := by simp only [entryOf, returnRecord_latch, imp_self]
  quiet _ _ _ := by simp only [returnRecord_circuits]

theorem raiseMissed_disposes (c : CircuitNo) (s : State) (k : Option Key) : Disposes c 0 s (raiseMissed s c k) := by
  cases k with
  | none => exact (OnlyCircuit.refl c s).disposes
  | some y =>
    exact
      { delivery := (raise_report s _ _).delivery
        freeCount := (raise_report s _ _).freeCount
        reports := raise_reports s _ _
        latched := fun _ => (raise_occurred s .deliveryMissed (.circuitKey c y)).1
        quiet := fun off _ _ => by
          rw [show raiseMissed s c (some y) = raise s .deliveryMissed (.circuitKey c y) from rfl]
          simp only [raise_quiet_circuits off] }

theorem disposeRecord_disposes (c : CircuitNo) (s : State) (r : Rec) : Disposes c 1 s (disposeRecord c s r) :=
  ((returnRecord_disposes c s r).trans (modSender_only _ c _).disposes).trans (raiseMissed_disposes c _ _)

theorem disposeRecords_disposes (c : CircuitNo) (rs : List Rec) (s : State) :
    Disposes c rs.length s (rs.foldl (disposeRecord c) s) := by
  induction rs generalizing s with
  | nil => exact (OnlyCircuit.refl c s).disposes
  | cons r rs ih =>
    rw [List.length_cons, Nat.add_comm]
    exact (disposeRecord_disposes c s r).trans (ih _)

/-- The circuit with `j` more records counted missed. -/
def Circuit.missing (j : Nat) (x : Circuit) : Circuit :=
  { x with sender := { x.sender with missed := count^[j] x.sender.missed } }

theorem disposeRecord_circuit {c : CircuitNo} {s : State} (barred : s.circuits[c].Barred) (r : Rec) :
    (disposeRecord c s r).circuits[c] = s.circuits[c].missing 1 := by
  have counted : (countMissed (returnRecord s r) c).circuits[c] = s.circuits[c].missing 1 := by
    simp only [countMissed, modSender_circuit, returnRecord_circuits]
    rfl
  have still : (countMissed (returnRecord s r) c).circuits[c].Barred := by
    rw [counted]
    exact barred
  exact (raiseMissed_barred still c _).trans counted

theorem disposeRecords_circuit {c : CircuitNo} (rs : List Rec) {s : State} (barred : s.circuits[c].Barred) :
    (rs.foldl (disposeRecord c) s).circuits[c] = s.circuits[c].missing rs.length := by
  induction rs generalizing s with
  | nil => rfl
  | cons r rs ih =>
    have first := disposeRecord_circuit barred r
    have still : (disposeRecord c s r).circuits[c].Barred := by
      rw [first]
      exact barred
    rw [List.foldl_cons, ih still, first]
    rfl

/-- R115: the counter stops at its top. -/
theorem count_iterate (j : Nat) {n : Nat} (top : n ≤ 65535) : count^[j] n = min (n + j) 65535 := by
  induction j generalizing n with
  | zero => exact (Nat.min_eq_left top).symm
  | succ j ih =>
    have first : count n = min (n + 1) 65535 := rfl
    rw [Function.iterate_succ_apply, ih (count_le n), first]
    omega

theorem disposeRecord_occurred {c : CircuitNo} {s : State} {r : Rec} {y : Key} (key : keyOfRecord s r = some y) :
    Occurred .deliveryMissed (.circuitKey c y) s (disposeRecord c s r) := by
  have eq : disposeRecord c s r = raise (countMissed (returnRecord s r) c) .deliveryMissed (.circuitKey c y) := by
    unfold disposeRecord
    rw [key]
    rfl
  rw [eq]
  exact (raise_occurred (countMissed (returnRecord s r) c) _ _).congr (occurrence_of_latch (returnRecord_latch s r).symm _) rfl

theorem disposeRecords_latched {c : CircuitNo} {rs : List Rec} {s : State} {r : Rec} {y : Key} (mem : r ∈ rs)
    (key : keyOfRecord s r = some y) : (entryOf (rs.foldl (disposeRecord c) s) .deliveryMissed).latched = true := by
  induction rs generalizing s with
  | nil => cases mem
  | cons x rs ih =>
    obtain rfl | later := List.mem_cons.mp mem
    · exact (disposeRecords_disposes c rs _).latched (disposeRecord_occurred key).1
    · exact ih later ((keyOfRecord_delivery (disposeRecord_disposes c s x).delivery r).trans key)

/-! ### A circuit going out of service (R154) -/

/-- R154 step 3: the record carried, unless it is detached. -/
def Sender.named (x : Sender) : List Rec :=
  match x.carried with
  | .record r => if r.ref = none then [] else [r]
  | _ => []

/-- R154: the records that are counted missed when the circuit goes out of service, in their order. -/
def Circuit.missable (x : Circuit) : List Rec := x.sender.named ++ (x.sender.chain ++ x.queue)

theorem missable_length (x : Circuit) : x.missable.length = missedBy x := by
  have named : x.sender.named.length = carriedCount (fun r => decide (r.ref ≠ none)) x.sender := by
    unfold Sender.named carriedCount
    cases x.sender.carried with
    | record r => by_cases detached : r.ref = none <;> simp [detached]
    | report => rfl
    | nothing => rfl
  rw [Circuit.missable, List.length_append, List.length_append, named, missedBy]
  omega

theorem mem_missable {x : Circuit} {r : Rec} (stands : StandsOn r x) (named : r.ref ≠ none) : r ∈ x.missable := by
  obtain queued | suspended | carried := stands
  · exact List.mem_append_right _ (List.mem_append_right _ queued)
  · exact List.mem_append_right _ (List.mem_append_left _ suspended)
  · exact List.mem_append_left _ (by simp [Sender.named, carried, named])

/-- The circuit with nothing on it, its sender STOPPED. -/
def Circuit.emptied (x : Circuit) : Circuit := { x with queue := [], sender := { x.sender.halted with chain := [] } }

/-- R154: the circuit is emptied, a detached record it carried returns to the pool, and the others are disposed of. -/
theorem circuitOut_eq (s : State) (c : CircuitNo) : ∃ b j, circuitOut s c = s.circuits[c].missable.foldl (disposeRecord c) b ∧
    Disposes c j s b ∧ b.circuits[c] = s.circuits[c].emptied ∧ b.latch = s.latch ∧
    j + missedBy s.circuits[c] = recordsOn (fun _ => true) s.circuits[c] := by
  let a := modCircuit s c Circuit.emptied
  have only : OnlyCircuit c s a :=
    .of_eq (q := []) (y := { s.circuits[c].sender.halted with chain := [] }) rfl
  have circuit : a.circuits[c] = s.circuits[c].emptied := modAt_same _ c _
  have out : circuitOut s c = (s.circuits[c].sender.chain ++ s.circuits[c].queue).foldl (disposeRecord c)
      (disposeCarried a c s.circuits[c].sender.carried) := rfl
  rw [out]
  unfold Circuit.missable Sender.named missedBy recordsOn carriedCount
  simp only [List.filter_true, if_true]
  cases s.circuits[c].sender.carried with
  | record r =>
    by_cases detached : r.ref = none
    · refine ⟨returnRecord a r, 1, ?_, only.disposes.trans (returnRecord_disposes c a r), ?_, returnRecord_latch a r, ?_⟩
      · simp only [disposeCarried, detached, if_true, List.nil_append]
      · simp only [returnRecord_circuits]
        exact circuit
      · simp only [detached, ne_eq, not_true_eq_false, decide_false, Bool.false_eq_true, if_false]
        omega
    · refine ⟨a, 0, ?_, only.disposes, circuit, rfl, ?_⟩
      · simp only [disposeCarried, detached, if_false]
        rfl
      · simp only [detached, ne_eq, not_false_eq_true, decide_true, if_true]
        omega
  | report => exact ⟨a, 0, rfl, only.disposes, circuit, rfl, by dsimp only; omega⟩
  | nothing => exact ⟨a, 0, rfl, only.disposes, circuit, rfl, by dsimp only; omega⟩

/-- What a circuit that goes out of service leaves. -/
structure WentOut (c : CircuitNo) (s u : State) : Prop where
  out : CircuitOut u.circuits[c]
  disposes : Disposes c (recordsOn (fun _ => true) s.circuits[c]) s u
  missed : s.circuits[c].sender.missed ≤ 65535 →
    u.circuits[c].sender.missed = min (s.circuits[c].sender.missed + missedBy s.circuits[c]) 65535
  latched : ∀ x y, StandsOn x s.circuits[c] → keyOfRecord s x = some y → (entryOf u .deliveryMissed).latched = true
  occurred : ∀ x y, StandsOn x s.circuits[c] → keyOfRecord s x = some y → missedBy s.circuits[c] = 1 →
    Occurred .deliveryMissed (.circuitKey c y) s u

theorem circuitOut_wentOut {s : State} {c : CircuitNo} (inhibited : circuitInService s.circuits[c] = false) :
    WentOut c s (circuitOut s c) := by
  obtain ⟨b, j, eq, first, emptied, latch, all⟩ := circuitOut_eq s c
  have barred : b.circuits[c].Barred := by
    rw [emptied]
    exact ⟨rfl, inhibited⟩
  have circuit : (circuitOut s c).circuits[c] = s.circuits[c].emptied.missing (missedBy s.circuits[c]) := by
    rw [eq, disposeRecords_circuit _ barred, emptied, missable_length]
  have disposes := first.trans (disposeRecords_disposes c s.circuits[c].missable b)
  rw [missable_length, all, ← eq] at disposes
  have listed {x : Rec} {y : Key} (stands : StandsOn x s.circuits[c]) (key : keyOfRecord s x = some y) :
      x ∈ s.circuits[c].missable := by
    refine mem_missable stands fun none => ?_
    rw [keyOfRecord, none] at key
    cases key
  refine ⟨?_, disposes, fun top => ?_, fun x y stands key => ?_, fun x y stands key one => ?_⟩
  · rw [circuit]
    exact ⟨⟨rfl, rfl, rfl⟩, rfl, ⟨rfl, rfl, rfl⟩, ⟨rfl, rfl⟩, rfl⟩
  · rw [circuit]
    exact count_iterate _ top
  · rw [eq]
    exact disposeRecords_latched (listed stands key) ((keyOfRecord_delivery first.delivery x).trans key)
  · have only : s.circuits[c].missable = [x] := by
      obtain ⟨r, single⟩ := List.length_eq_one_iff.mp ((missable_length _).trans one)
      rw [single] at listed ⊢
      rw [List.mem_singleton.mp (listed stands key)]
    rw [eq, only]
    exact (disposeRecord_occurred ((keyOfRecord_delivery first.delivery x).trans key)).congr
      (occurrence_of_latch latch.symm _) rfl

/-! ### The request (R130, R131) -/

section Circuit

variable {s : State} {cn rs wd sp bk cw md ro op : Text} {n : Nat} {d : CircuitDesc}

theorem bodyCircuit_judged (number : circuitForm cn = some n) (formed : circuitForms rs wd sp bk cw md ro op = some d) :
    bodyCircuit [cn, rs, wd, sp, bk, cw, md, ro, op] s = circuitJudged s n d := by
  simp only [bodyCircuit, number, formed]

theorem circuitForms_eq {r : RateSet} {w : Width} {p : Stop} {b : BankNo} {kw km kr : Nat} {o : Bool}
    (rates : rateSetForm rs = some r) (width : widthForm wd = some w) (stop : stopForm sp = some p)
    (bank : bankInRange bk = some b) (carriage : number? cw = some kw) (delay : number? md = some km)
    (runOn : number? ro = some kr) (option : onOffForm op = some o) : circuitForms rs wd sp bk cw md ro op =
      some { rates := r, width := w, stop := p, bank := b, carriage := max 20 (min 120 kw), motorDelay := min km 255
             runOn := min kr 255, bulletinBreak := o } := by
  simp only [circuitForms, rates, width, stop, bank, carriage, delay, runOn, option]
  rfl

theorem circuitJudged_form (c : CircuitNo) (unkind : kindMatches d.width s.banks[d.bank].kind = false) :
    circuitJudged s c.val d = refuse s .form := by
  simp only [circuitJudged, below_val, unkind, Bool.false_eq_true, if_false]

theorem circuitJudged_mode {c : CircuitNo} (kind : kindMatches d.width s.banks[d.bank].kind = true)
    (running : s.circuits[c].sender.state ≠ .stopped) : circuitJudged s c.val d = refuse s .mode := by
  simp only [circuitJudged, below_val, kind, if_true, if_neg running]

theorem circuitJudged_done {c : CircuitNo} (kind : kindMatches d.width s.banks[d.bank].kind = true)
    (stopped : s.circuits[c].sender.state = .stopped) :
    circuitJudged s c.val d = done (atOnce (setCircuit s c d)) (circuitDescToks d) := by
  simp only [circuitJudged, below_val, kind, if_true, if_pos stopped]

end Circuit

/-- R131: with a rate set the circuit, set afresh, is offered work. -/
theorem setCircuit_offers {s : State} {c : CircuitNo} {d : CircuitDesc} (stopped : s.circuits[c].sender.state = .stopped)
    (rates : d.rates ≠ noneOf 8) :
    setCircuit s c d = offer (modCircuit s c fun x => { x with desc := d, outOfService := false }) c := by
  have circuit : (modCircuit s c fun x => { x with desc := d, outOfService := false }).circuits[c] =
      { s.circuits[c] with desc := d, outOfService := false } := modAt_same _ c _
  have still : (modCircuit s c fun x => { x with desc := d, outOfService := false }).circuits[c].sender.state = .stopped := by
    rw [circuit]
    exact stopped
  simp only [setCircuit, if_neg rates, offer, still]

/-- R131: with no rate set the circuit goes out of service. -/
theorem setCircuit_wentOut {s : State} {c : CircuitNo} {d : CircuitDesc} (unset : d.rates = noneOf 8) :
    WentOut c (modCircuit s c fun x => { x with desc := d, outOfService := false }) (setCircuit s c d) := by
  have eq : setCircuit s c d = circuitOut _ c := if_pos unset
  rw [eq]
  refine circuitOut_wentOut ?_
  rw [modCircuit_circuits, modAt_same]
  simp [circuitInService, unset]

/-- Settles O37: the rows of R130's table in their order, and for an accepted request the offer of work or `circuitOut`. -/
theorem circuitSetsTheCircuit : Obligations.CircuitSetsTheCircuit := by
  unfold Obligations.CircuitSetsTheCircuit
  rintro s cn rs wd sp bk cw md ro op n r w p b kw km kr o turn number rates width stop bank carriage delay runOn option i rfl
  have judged := fun s : State => bodyCircuit_judged (s := s) number
    (circuitForms_eq rates width stop bank carriage delay runOn option)
  refine ⟨fun high => runRequest_refused turn ((judged _).trans ?_), ?_⟩
  · simp only [circuitJudged, below_none high]
  · rintro c rfl
    refine ⟨fun unkind => runRequest_refused turn ((judged _).trans (circuitJudged_form c unkind)), fun kind =>
      ⟨fun running => runRequest_refused turn ((judged _).trans (circuitJudged_mode kind running)), ?_⟩⟩
    rintro stopped d described m rfl
    have set_rates : d.rates = r := by rw [described]
    refine ⟨setCircuit (popLine s) c d, ?_, fun set => ?_, fun unset => ?_⟩
    · subst described
      exact runRequest_done turn ((judged _).trans (circuitJudged_done kind stopped))
    · rw [setCircuit_offers (s := popLine s) stopped (set_rates.trans_ne set)]
      exact ⟨offer_only _ c, offer_offered _ c⟩
    · have went := setCircuit_wentOut (s := popLine s) (c := c) (set_rates.trans unset)
      have circuit : (modCircuit (popLine s) c fun x => { x with desc := d, outOfService := false }).circuits[c] =
          { s.circuits[c] with desc := d, outOfService := false } := modAt_same _ c _
      have missed := went.missed
      have disposed := went.disposes.freeCount
      have latched := went.latched
      have occurred := went.occurred
      rw [circuit] at missed disposed latched occurred
      exact ⟨went.out, went.disposes.delivery, went.disposes.reports, missed, disposed,
        fun x y stands key => ⟨latched x y stands key, occurred x y stands key⟩,
        fun off e ne => (went.disposes.quiet off e ne).trans (modAt_other _ _ ne)⟩

end Sys2Proof.Machine
/-! ## Senders at their timers and at a character sent (O38 to O43)

R109, R122 to R124, R134 to R150. -/

namespace Sys2Proof.Machine

open Sys2Proof

/-! ### A sender that asks for a selection (R122, R135, R136) -/

theorem enterPausing_circuit (s : State) (c : CircuitNo) : (enterPausing s c).circuits[c] = { s.circuits[c] with sender :=
    if s.circuits[c].desc.runOn = 0 then s.circuits[c].sender.halted
    else { s.circuits[c].sender.bare with
      state := .pausing, motorTimer := none, runOnTimer := some s.circuits[c].desc.runOn, column := 0 } } := by
  unfold enterPausing
  dsimp only
  split
  · exact modSender_circuit s c _
  · exact modSender_circuit s c _

theorem enterPausing_selected {s : State} {c : CircuitNo} (none : hasWork s c = false) :
    Selected s c s.circuits[c] (enterPausing s c).circuits[c] := by
  rw [Selected, none, if_neg Bool.false_ne_true]
  exact enterPausing_circuit s c

theorem select_selected {s : State} {c : CircuitNo} (state : s.circuits[c].sender.state ≠ .pausing) :
    Selected s c s.circuits[c] (select s c).circuits[c] := by
  cases work : hasWork s c with
  | true =>
    rw [Selected, work, if_pos rfl]
    exact select_begun work
  | false =>
    have chosen : choose s c = .nothing := by simpa [hasWork] using work
    have pauses : select s c = enterPausing s c := by simp only [select, chosen, if_neg state]
    rw [pauses]
    exact enterPausing_selected work

theorem select_changed {s : State} {c : CircuitNo} (state : s.circuits[c].sender.state ≠ .pausing) :
    CircuitChanged c (Selected s c) s (select s c) := ⟨select_only s c, select_selected state⟩

/-- A selection of a STARTING sender, its timer run out, is one of the circuit as it stood. -/
theorem motorReady_selected {s : State} {c : CircuitNo} (state : s.circuits[c].sender.state = .starting) :
    Selected s c s.circuits[c] (motorReady c s).circuits[c] := by
  let a := modSender s c fun x => { x with motorTimer := none }
  have ready : motorReady c s = select a c := if_pos state
  have circuit : a.circuits[c] = { s.circuits[c] with sender := { s.circuits[c].sender with motorTimer := none } } :=
    modSender_circuit s c _
  have chosen : choose a c = choose s c := choose_modSender rfl
  have selected : Selected a c a.circuits[c] (select a c).circuits[c] :=
    select_selected (by rw [circuit]; exact fun e => nomatch state.symm.trans e)
  rw [Selected, hasWork_congr chosen, circuit] at selected
  rw [ready, Selected]
  split
  · next work =>
    rw [if_pos work] at selected
    exact selected.congr chosen (fun _ _ => rfl) ⟨⟨rfl, rfl⟩, rfl, rfl, rfl, rfl, rfl, rfl⟩
  · next none =>
    rw [if_neg none] at selected
    exact selected

/-- Settles O38: the two timers lead to a selection and to a halt, and the second to one map over the queues. -/
theorem motorTimersAndTheSecond : Obligations.MotorTimersAndTheSecond := by
  unfold Obligations.MotorTimersAndTheSecond
  refine ⟨fun s c high => ⟨fun state => ?_, fun state => ?_⟩, fun s high => runBareEvent_high high⟩
  · exact ⟨motorReady c s, runEvent_high high, motorReady_only c s, motorReady_selected state⟩
  · have ends : runOnEnds c s = modSender s c Sender.halted := if_pos state
    exact (runBareEvent_high high).trans (congrArg _ ends)

/-! ### A character sent (R137, R139) -/

theorem modSender_modSender (s : State) (c : CircuitNo) (f g : Sender → Sender) :
    modSender (modSender s c f) c g = modSender s c fun x => g (f x) := modCircuit_modCircuit s c _ _

/-- A sender set to what it is. -/
theorem modSender_self (s : State) (c : CircuitNo) : (modSender s c fun _ => s.circuits[c].sender) = s := by
  unfold modSender modCircuit
  rw [modAt_id _ _ _ rfl]

/-- The phase of the sender is that of its next character. -/
def Sender.Stands (v : Version) (x : Sender) : Prop :=
  (x.phase = .lead ∧ x.lead ≠ []) ∨ (x.phase = .gap ∧ x.gap ≠ []) ∨ (x.phase = .header ∧ x.header ≠ []) ∨
    (x.phase = .body ∧ x.bodyPos < v.text.length)

theorem Sender.Stands.settled {v : Version} {x : Sender} (h : x.Stands v) : settlePhase v x = x := by
  obtain ⟨phase, rest⟩ | ⟨phase, rest⟩ | ⟨phase, rest⟩ | ⟨phase, rest⟩ := h
  · simp [settlePhase, phase, rest]
  · simp [settlePhase, phase, rest]
  · simp [settlePhase, phase, rest]
  · simp [settlePhase, phase, Version.length, rest]

theorem Sender.Stands.not_over {v : Version} {x : Sender} (h : x.Stands v) :
    x.phase ≠ .cut ∧ x.phase ≠ .trailer ∧ deliveryFinished x = false := by
  obtain ⟨phase, -⟩ | ⟨phase, -⟩ | ⟨phase, -⟩ | ⟨phase, -⟩ := h <;> simp [deliveryFinished, phase]

section Sent

variable {s : State} {c : CircuitNo} {g : Sending} {r : Rec}

/-- The state in which the character `g` has been sent on circuit `c`. -/
def sentOn (s : State) (c : CircuitNo) (g : Sending) : State := modSender s c (afterSent g)

theorem sentOn_circuit (s : State) (c : CircuitNo) (g : Sending) :
    (sentOn s c g).circuits[c] = { s.circuits[c] with sender := afterSent g s.circuits[c].sender } := modSender_circuit s c _

theorem exec_characterSent (high : s.resetLow = false) : exec (.characterSent c) s = .next (atOnce (charSent s c)) :=
  runEvent_high (f := fun t => charSent t c) high

theorem exec_characterSent_eq {u : State} (high : s.resetLow = false) (sent : charSent s c = u) :
    exec (.characterSent c) s = .next (atOnce u) := sent ▸ exec_characterSent high

theorem charSent_record (sending : s.circuits[c].sender.sending = some g)
    (carried : s.circuits[c].sender.carried = .record r) : charSent s c = recordSent (sentOn s c g) c r g.phase := by
  have still : (sentOn s c g).circuits[c].sender.carried = .record r := by
    rw [sentOn_circuit]
    exact carried
  simp only [sentOn] at still
  simp only [charSent, sending, still, sentOn]

theorem charSent_report (sending : s.circuits[c].sender.sending = some g)
    (carried : s.circuits[c].sender.carried = .report) : charSent s c = reportSent (sentOn s c g) c := by
  have still : (sentOn s c g).circuits[c].sender.carried = .report := by
    rw [sentOn_circuit]
    exact carried
  simp only [sentOn] at still
  simp only [charSent, sending, still, sentOn]

variable {a : State} {last : Phase}

/-- R147: a delivery that is neither cut nor over goes on. -/
theorem recordSent_goesOn (named : r.ref ≠ none) (stands : a.circuits[c].sender.Stands (readVersion a r)) :
    recordSent a c r last = goOn a c r last := by
  obtain ⟨uncut, -, unfinished⟩ := stands.not_over
  unfold recordSent
  dsimp only
  rw [if_neg uncut, if_neg named, stands.settled, unfinished, if_neg Bool.false_ne_true, modSender_self]

/-- R143. -/
theorem recordSent_finishes (named : r.ref ≠ none) (phase : a.circuits[c].sender.phase = .trailer)
    (tail : a.circuits[c].sender.tail = []) : recordSent a c r last = finishDelivery a c r := by
  have uncut : a.circuits[c].sender.phase ≠ .cut := by rw [phase]; exact nofun
  have ended : deliveryFinished a.circuits[c].sender = true := by rw [deliveryFinished, phase, tail]; rfl
  unfold recordSent
  dsimp only
  rw [if_neg uncut, if_neg named, settlePhase_trailer phase, ended, if_pos rfl, modSender_self]

/-- R150. -/
theorem recordSent_cuts (detached : r.ref = none) (uncut : a.circuits[c].sender.phase ≠ .cut) :
    recordSent a c r last = startCut a c := by
  simp only [recordSent, if_neg uncut, detached, if_true]

theorem recordSent_cut (phase : a.circuits[c].sender.phase = .cut) (tail : a.circuits[c].sender.tail = []) :
    recordSent a c r last = finishCut a c r := by
  simp only [recordSent, phase, tail, if_true]

theorem goOn_takesNext (carrying : a.circuits[c].sender.state = .carrying)
    (quiet : a.circuits[c].sender.breakPending = false) : goOn a c r last = takeNext a c := by
  simp only [goOn, carrying, quiet, reduceCtorEq, if_false, Bool.false_eq_true]

/-! ### The next character (R137, R138, R141) -/

/-- The sender `y` with `h` on its circuit. -/
def sending (s : State) (c : CircuitNo) (h : House) (y : Sender) : Sender :=
  { y with
    belief := (groupOf s c y.belief h).2
    sending := some { char := h, phase := y.phase, codes := (groupOf s c y.belief h).1 } }

theorem sendChar_sentOn (h : House) (y : Sender) : sendChar (sentOn s c g) c h y = sending s c h y := by
  have group : groupOf (sentOn s c g) c = groupOf s c := by
    funext b h
    simp only [groupOf, sentOn_circuit]
    rfl
  have sends : sendChar (sentOn s c g) c h y = sending (sentOn s c g) c h y := rfl
  rw [sends, sending, group]
  rfl

theorem sending_phase {h : House} {y : Sender} {p : Phase} (phase : y.phase = p) : sending s c h y = { y with
    belief := (groupOf s c y.belief h).2
    sending := some { char := h, phase := p, codes := (groupOf s c y.belief h).1 } } := by
  subst phase
  rfl

/-- R138: after a character sent `h` is taken, or a fold NL before it; `y` is the sender once `h` is taken. -/
theorem takeNext_sentOn {h : House} {y : Sender}
    (next : nextChar (carriedVersion (sentOn s c g) (afterSent g s.circuits[c].sender)) (oldestReport s)
      (afterSent g s.circuits[c].sender) = some (h, y)) :
    (isAdvancing h = true ∧ columnAfter g s.circuits[c].sender = s.circuits[c].desc.carriage →
      takeNext (sentOn s c g) c = modSender s c fun _ => sending s c houseNL (afterSent g s.circuits[c].sender)) ∧
    (¬(isAdvancing h = true ∧ columnAfter g s.circuits[c].sender = s.circuits[c].desc.carriage) →
      takeNext (sentOn s c g) c = modSender s c fun _ => sending s c h y) := by
  have sender : (sentOn s c g).circuits[c].sender = afterSent g s.circuits[c].sender := by rw [sentOn_circuit]
  have desc : (sentOn s c g).circuits[c].desc = s.circuits[c].desc := by rw [sentOn_circuit]
  have report : oldestReport (sentOn s c g) = oldestReport s := rfl
  have column : (afterSent g s.circuits[c].sender).column = columnAfter g s.circuits[c].sender := rfl
  unfold takeNext
  dsimp only
  rw [sender, report, next, desc, column]
  dsimp only
  refine ⟨fun full => ?_, fun fits => ?_⟩
  · rw [if_pos full, sendChar_sentOn]
    exact modSender_modSender s c _ _
  · rw [if_neg fits, sendChar_sentOn]
    exact modSender_modSender s c _ _

end Sent

/-- Settles O39: in BODY with no break pending nothing stands before the next character but a fold. -/
theorem theNextCharacterIsTaken : Obligations.TheNextCharacterIsTaken := by
  unfold Obligations.TheNextCharacterIsTaken
  rintro s c r g h high sent carried named carrying phase quiet here col line rfl rfl
  let x := afterSent g s.circuits[c].sender
  have circuit := sentOn_circuit s c g
  have stands : (sentOn s c g).circuits[c].sender.Stands (readVersion (sentOn s c g) r) := by
    rw [circuit]
    exact .inr (.inr (.inr ⟨phase, (List.getElem?_eq_some_iff.mp here).1⟩))
  have goes : charSent s c = takeNext (sentOn s c g) c := by
    rw [charSent_record sent carried, recordSent_goesOn named stands]
    refine goOn_takesNext ?_ ?_
    · rw [circuit]
      exact carrying
    · rw [circuit]
      exact quiet
  have next : nextChar (carriedVersion (sentOn s c g) x) (oldestReport s) x =
      some (h, { x with bodyPos := x.bodyPos + 1 }) := by
    have still : x.carried = .record r := carried
    have body : x.phase = .body := phase
    have there : (readVersion (sentOn s c g) r).text[x.bodyPos]? = some h := here
    simp only [carriedVersion, still, nextChar, body, there]
  obtain ⟨folds, takes⟩ := takeNext_sentOn next
  refine ⟨fun advancing full => exec_characterSent_eq high ?_, fun fits => exec_characterSent_eq high ?_⟩
  · rw [goes, folds ⟨advancing, full⟩, sending_phase (y := afterSent g s.circuits[c].sender) phase]
    exact modSender_congr rfl
  · rw [goes, takes fits, sending_phase (y := { afterSent g s.circuits[c].sender with bodyPos := _ }) phase]
    exact modSender_congr rfl

/-! ### The end of a delivery (R124, R143) -/

section Finish

variable {s : State} {c : CircuitNo} {g : Sending} {r : Rec}

theorem unname_current {f : RecRef} (current : f.version = .current) (x : Slot) :
    unname x f = { x with pendingCount := x.pendingCount - 1 } := by
  simp only [unname, current]

theorem returnRecord_modSender (f : Sender → Sender) : returnRecord (modSender s c f) r = modSender (returnRecord s r) c f := by
  unfold returnRecord
  cases r.ref <;> rfl

/-- R143: the record of a delivery that finishes has returned to the pool, and the sender selects. -/
theorem finishDelivery_eq {f : RecRef} (ref : r.ref = some f) : finishDelivery (sentOn s c g) c r =
    select (modSender (modSlot { s with freeCount := s.freeCount + 1 } f.slot fun x => unname x f) c fun x =>
      { x.bare with column := columnAfter g x, completed := min (x.completed + 1) 65535 }) c := by
  unfold finishDelivery sentOn
  rw [modSender_modSender, returnRecord_modSender, returnRecord_modSlot ref]
  rfl

end Finish

/-- Settles O40: at the end of the trailer the delivery finishes. -/
theorem deliveriesFinish : Obligations.DeliveriesFinish := by
  unfold Obligations.DeliveriesFinish
  rintro s c r f g high sent carried ref busy phase tail m rfl
  refine ⟨fun current => ?_, _, exec_characterSent high, ?_⟩
  · rw [modSender_slots, modSlot_slots]
    simp only [unname_current current]
  · have named : r.ref ≠ none := by rw [ref]; exact nofun
    have ends : charSent s c = finishDelivery (sentOn s c g) c r := by
      rw [charSent_record sent carried]
      refine recordSent_finishes named ?_ ?_
      · rw [sentOn_circuit]
        exact phase
      · rw [sentOn_circuit]
        exact tail
    rw [ends, finishDelivery_eq ref]
    refine select_changed ?_
    rw [modSender_circuit]
    obtain e | e := busy
    · exact fun e' => nomatch e.symm.trans e'
    · exact fun e' => nomatch e.symm.trans e'

/-! ### Cuts (R150) -/

section Ends

variable {s a : State} {c : CircuitNo} {g : Sending} {r : Rec} {last : Phase}

/-- R150 steps 1 to 3: the sender has entered CUT, and nothing else of its circuit has changed. -/
theorem startCut_circuit (a : State) (c : CircuitNo) : ∃ y, (startCut a c).circuits[c] = { a.circuits[c] with sender := y } ∧
    y.phase = .cut ∧ y.breakPending = false ∧ y.carried = a.circuits[c].sender.carried ∧
    y.state = a.circuits[c].sender.state ∧ y.column = a.circuits[c].sender.column := by
  let f : Sender → Sender := fun x =>
    { x with
      phase := .cut, breakPending := false, lead := [], gap := [], header := []
      tail := freshLine x.column ++ cutLineText (x.cutTold.getD .storeCut) }
  obtain ⟨y, taken, circuit⟩ := takeNext_circuit (modSender a c f) c
  rw [modSender_circuit] at taken circuit
  exact ⟨y, circuit, (congrArg Sender.phase taken :), (congrArg Sender.breakPending taken :),
    (congrArg Sender.carried taken :), (congrArg Sender.state taken :), (congrArg Sender.column taken :)⟩

/-- R150 steps 4 and 5: a detached record lowers no slot's count. -/
theorem finishCut_eq (detached : r.ref = none) : finishCut (sentOn s c g) c r =
    select (modSender { s with freeCount := s.freeCount + 1 } c fun x => { x.bare with column := columnAfter g x }) c := by
  unfold finishCut sentOn
  rw [modSender_modSender, returnRecord_modSender, returnRecord, detached]
  rfl

/-! ### The end of a close (R123, R152) -/

/-- R123 step 4: a reader of the current version goes back to the head of the queue. -/
theorem handBack_queued {f : RecRef} (ref : r.ref = some f) (current : f.version = .current)
    (fresh : ∀ y ∈ a.circuits[c].queue, ¬(ofTake f.slot f.take y = true ∧ y.kind = r.kind)) :
    handBack a c r = modQueue a c fun q => { r with composed := none } :: q := by
  have none : sameQueued a.circuits[c].queue f r.kind = false := by
    refine List.any_eq_false.mpr fun y mem => ?_
    simpa using fresh y mem
  simp only [handBack, ref, current, handBackCurrent, none, Bool.false_eq_true, if_false]

theorem afterSent_bare (g : Sending) (x : Sender) : (afterSent g x).bare = { x.bare with column := columnAfter g x } := rfl

/-- R152: a close goes to its end at the end of a print line before the trailer. -/
theorem goOn_closes (closing : a.circuits[c].sender.state = .closing) (column : a.circuits[c].sender.column = 0)
    (phase : a.circuits[c].sender.phase ≠ .trailer) : goOn a c r last = closeEnds a c r last := by
  simp only [goOn, closing, column, phase, if_true, ne_eq, not_false_eq_true, and_self]

/-- R152: when a close has ended the sender asks for a selection. -/
theorem closeEnds_changed {w : State} (handed : handBack (modSender a c Sender.bare) c
      { r with resume := closedOffset a.circuits[c].sender last r } = w)
    (state : w.circuits[c].sender.state ≠ .pausing) : CircuitChanged c (Selected w c) w (closeEnds a c r last) := by
  subst handed
  unfold closeEnds
  dsimp only
  split
  · exact select_changed state
  · next none => exact ⟨enterPausing_only _ c, enterPausing_selected (Bool.eq_false_iff.mpr none)⟩

end Ends

/-- Settles O42: the three ends of `recordSent` that are neither a finish nor a break. -/
theorem cutsAndClosesEnd : Obligations.CutsAndClosesEnd := by
  unfold Obligations.CutsAndClosesEnd
  refine ⟨?_, ?_⟩
  · rintro s c r g x rfl high sent carried detached busy
    refine ⟨fun uncut => ?_, fun phase tail m eq => ?_⟩
    · have cuts : charSent s c = startCut (sentOn s c g) c := by
        rw [charSent_record sent carried]
        refine recordSent_cuts detached ?_
        rw [sentOn_circuit]
        exact uncut
      obtain ⟨y, circuit, phase, quiet, still, -⟩ := startCut_circuit (sentOn s c g) c
      rw [sentOn_circuit] at circuit still
      refine ⟨_, exec_characterSent_eq high cuts, (modSender_only s c _).trans (startCut_only _ c), ?_⟩
      rw [circuit]
      exact ⟨phase, quiet, still.trans carried, rfl⟩
    · subst eq
      have ends : charSent s c = finishCut (sentOn s c g) c r := by
        rw [charSent_record sent carried]
        refine recordSent_cut ?_ ?_
        · rw [sentOn_circuit]
          exact phase
        · rw [sentOn_circuit]
          exact tail
      refine ⟨_, exec_characterSent_eq high (ends.trans (finishCut_eq detached)), select_changed ?_⟩
      rw [modSender_circuit]
      obtain e | e := busy
      · exact fun e' => nomatch e.symm.trans e'
      · exact fun e' => nomatch e.symm.trans e'
  · rintro s c r f g x rfl high sent line last carried ref current closing phase more fresh m rfl
    have circuit := sentOn_circuit s c g
    have named : r.ref ≠ none := by rw [ref]; exact nofun
    have column : columnAfter g s.circuits[c].sender = 0 := if_pos line
    have stands : (sentOn s c g).circuits[c].sender.Stands (readVersion (sentOn s c g) r) := by
      rw [circuit]
      exact .inr (.inr (.inr ⟨phase, more⟩))
    have ends : charSent s c = closeEnds (sentOn s c g) c r g.phase := by
      rw [charSent_record sent carried, recordSent_goesOn named stands]
      refine goOn_closes ?_ ?_ ?_
      · rw [circuit]
        exact closing
      · rw [circuit]
        exact column
      · exact stands.not_over.2.1
    have offset : closedOffset (sentOn s c g).circuits[c].sender g.phase r = some s.circuits[c].sender.bodyPos := by
      rw [circuit, last]
      exact if_pos ⟨phase, nofun⟩
    refine ⟨_, exec_characterSent_eq high ends, closeEnds_changed ?_ ?_⟩
    · rw [offset]
      refine (handBack_queued (r := { r with resume := some s.circuits[c].sender.bodyPos }) ref current ?_).trans ?_
      · rw [modSender_circuit, circuit]
        exact fresh
      · refine (modCircuit_modCircuit _ c _ _).trans ((modCircuit_modCircuit s c _ _).trans (modCircuit_congr ?_))
        rw [afterSent_bare, column]
    · rw [modCircuit_circuits, modAt_same]
      exact fun e => nomatch closing.symm.trans e

end Sys2Proof.Machine
/-! ## Breaks made, and reports printed (O41, O43)

R121, R138, R140, R144 to R149, R173, R184. -/

namespace Sys2Proof.Machine

open Sys2Proof

/-! ### A break made (R140, R146 to R148) -/

section Breaks

variable {s a : State} {c : CircuitNo} {g : Sending} {r b : Rec} {last : Phase} {i : Nat}

theorem breakerFor_modSender (s : State) (c : CircuitNo) (f : Sender → Sender) (y : Class) :
    breakerFor (modSender s c f) c y = breakerFor s c y := by
  unfold breakerFor
  rw [modSender_circuit]
  rfl

/-- R147: break pending is cleared, and the breaker found is carried. -/
theorem goOn_breaks (carrying : a.circuits[c].sender.state = .carrying) (pending : a.circuits[c].sender.breakPending = true)
    (early : a.circuits[c].sender.phase ≠ .trailer) (found : breakerFor a c r.cls = some i)
    (queued : a.circuits[c].queue[i]? = some b) :
    goOn a c r last = makeBreak (modSender a c fun y => { y with breakPending := false }) c r i b := by
  have circuit := modSender_circuit a c fun y => { y with breakPending := false }
  have untrailed : (modSender a c fun y => { y with breakPending := false }).circuits[c].sender.phase ≠ .trailer := by
    rw [circuit]
    exact early
  have queued' : (modSender a c fun y => { y with breakPending := false }).circuits[c].queue[i]? = some b := by
    rw [circuit]
    exact queued
  unfold goOn
  dsimp only
  rw [carrying, if_neg (fun e => nomatch e), if_pos pending]
  simp only [takeBreak, if_neg untrailed, breakerFor_modSender, found, queued']

theorem beginRecord_prelude (s : State) (r : Rec) (x : Sender) :
    (beginRecord s r true x).phase = .lead ∧ (beginRecord s r true x).lead ≠ [] := by
  have line (t : Text) : freshLine x.column ++ breakLine ++ t ≠ [] := by simp [breakLine, lineOf]
  unfold beginRecord
  dsimp only
  split
  · exact ⟨rfl, by simpa using line []⟩
  · split
    · exact ⟨rfl, line _⟩
    · exact ⟨rfl, by simpa using line []⟩

/-- R140: a breaker begins with its break prelude. -/
theorem carryRecord_prelude (s : State) (c : CircuitNo) (r : Rec) : ∃ y, BeginsWith r s.circuits[c].sender y ∧
    y.phase = .lead ∧ y.column = s.circuits[c].sender.column ∧
    (carryRecord s c r true).circuits[c] = { s.circuits[c] with sender := y } := by
  let z := beginRecord s r true s.circuits[c].sender
  have settled : settlePhase (readVersion s r) z = z := Sender.Stands.settled (.inl (beginRecord_prelude s r _))
  obtain ⟨y, taken, circuit⟩ := takeNext_circuit (modSender s c fun x => settlePhase (readVersion s r) (beginRecord s r true x)) c
  rw [modSender_circuit] at taken circuit
  have same : untaken y = untaken z := taken.trans (congrArg untaken settled)
  have phase : y.phase = z.phase := (congrArg Sender.phase same :)
  have column : y.column = z.column := (congrArg Sender.column same :)
  refine ⟨y, (beginRecord_begins s r true _).of_unsettled ?_, phase.trans (beginRecord_prelude s r _).1,
    column.trans (beginRecord_column s r true _), circuit⟩
  exact (congrArg (fun z : Sender => { z with phase := .lead }) same :)

/-- R148: the record broken into is suspended on top of the chain, and the breaker has left the queue. -/
theorem makeBreak_circuit (s : State) (c : CircuitNo) (r : Rec) (i : Nat) (b : Rec) : ∃ y,
    BeginsWith b { s.circuits[c].sender with
      chain := s.circuits[c].sender.chain ++ [suspended s.circuits[c].sender r]
      breaksIn := count s.circuits[c].sender.breaksIn } y ∧
    y.phase = .lead ∧ y.column = s.circuits[c].sender.column ∧
    (makeBreak s c r i b).circuits[c] = { s.circuits[c] with queue := s.circuits[c].queue.eraseIdx i, sender := y } := by
  have carries := carryRecord_prelude (modQueue (modSender s c fun x =>
    { x with chain := x.chain ++ [suspended x r], breaksIn := count x.breaksIn }) c fun q => withoutAt q i) c b
  rw [modQueue_circuit, modSender_circuit] at carries
  exact carries

end Breaks

/-- R148: the record as it is suspended, with the offset its phase gives. -/
theorem suspended_eq {x : Sender} {r : Rec} {resume : Option Nat}
    (offset : (x.phase = .lead ∧ resume = r.resume) ∨ (x.phase = .gap ∧ resume = r.resume) ∨
      (x.phase = .header ∧ resume = some (r.resume.getD 0)) ∨ (x.phase = .body ∧ resume = some x.lineStart)) :
    suspended x r = { r with resume := resume, composed := if resume = none then some x.header else none } := by
  have broken : brokenOffset x r = resume := by
    obtain ⟨phase, rfl⟩ | ⟨phase, rfl⟩ | ⟨phase, rfl⟩ | ⟨phase, rfl⟩ := offset <;> simp only [brokenOffset, phase]
  rw [suspended, broken]

/-! ### What a record begins with (R135, R139, R140, R149) -/

theorem resumeLine_eq (s : State) (f : RecRef) : resumeLine s f =
    txt "== RESUME " ++ keyText s f.slot ++ txt " T" ++ decimal f.take ++ txt " ==" ++ [houseNL] := by
  have take : houseSpace :: takeTok f.take = txt " T" ++ decimal f.take := rfl
  rw [resumeLine, take, lineOf, ← List.append_assoc]

theorem prelude_eq (x : Sender) : freshLine x.column ++ breakLine =
    (if x.column = 0 then [] else [houseNL]) ++ txt "== BREAK ==" ++ [houseNL] := (List.append_assoc ..).symm

theorem beginRecord_resumes {s : State} {r : Rec} {f : RecRef} {o : Nat} (p : Bool) (x : Sender) (ref : r.ref = some f)
    (resume : r.resume = some o) : beginRecord s r p x = { x.bare with
      state := .carrying, motorTimer := none, runOnTimer := none, carried := .record r, bodyPos := o, lineStart := o
      lead := (if p then freshLine x.column ++ breakLine else []) ++ resumeLine s f } := by
  simp only [beginRecord, ref, resume]
  rfl

theorem beginRecord_starts {s : State} {r : Rec} {f : RecRef} (p : Bool) (x : Sender) (ref : r.ref = some f)
    (resume : r.resume = none) : beginRecord s r p x = { x.bare with
      state := .carrying, motorTimer := none, runOnTimer := none, carried := .record r, bodyPos := 0, lineStart := 0
      lead := if p then freshLine x.column ++ breakLine else []
      gap := gapLine r.gap, header := r.composed.getD (headerLine s f r) } := by
  simp only [beginRecord, ref, resume]
  rfl

/-- Settles O41: `goOn` makes the break, and `beginRecord` composes what a record begins with. -/
theorem breaksAreMade : Obligations.BreaksAreMade := by
  unfold Obligations.BreaksAreMade
  refine ⟨?_, ?_⟩
  · rintro s c r b g i x rfl high sent carried named carrying pending best queued resume offset
    let x := afterSent g s.circuits[c].sender
    have circuit := sentOn_circuit s c g
    have stands : (sentOn s c g).circuits[c].sender.Stands (readVersion (sentOn s c g) r) := by
      rw [circuit]
      obtain ⟨phase, more, -⟩ | ⟨phase, more, -⟩ | ⟨phase, more, -⟩ | ⟨phase, more, -⟩ := offset
      · exact .inl ⟨phase, more⟩
      · exact .inr (.inl ⟨phase, more⟩)
      · exact .inr (.inr (.inl ⟨phase, more⟩))
      · exact .inr (.inr (.inr ⟨phase, more⟩))
    have suspends : suspended { x with breakPending := false } r =
        { r with resume := resume, composed := if resume = none then some x.header else none } := by
      refine suspended_eq ?_
      obtain ⟨phase, -, offset⟩ | ⟨phase, -, offset⟩ | ⟨phase, -, offset⟩ | ⟨phase, -, offset⟩ := offset
      · exact .inl ⟨phase, offset⟩
      · exact .inr (.inl ⟨phase, offset⟩)
      · exact .inr (.inr (.inl ⟨phase, offset⟩))
      · exact .inr (.inr (.inr ⟨phase, offset⟩))
    let w := modSender (sentOn s c g) c fun y => { y with breakPending := false }
    have cleared : w.circuits[c] = { s.circuits[c] with sender := { x with breakPending := false } } := by
      rw [modSender_circuit, circuit]
    have breaks : charSent s c = makeBreak w c r i b := by
      rw [charSent_record sent carried, recordSent_goesOn named stands]
      have found : breakerFor (sentOn s c g) c r.cls = some i :=
        (breakerFor_modSender s c _ r.cls).trans (breakerFor_of_isBest best)
      have early := stands.not_over.2.1
      refine goOn_breaks ?_ ?_ early found ?_
      all_goals rw [circuit]
      · exact carrying
      · exact pending
      · exact queued
    obtain ⟨y, begins, phase, column, made⟩ := makeBreak_circuit w c r i b
    rw [cleared] at begins column made
    rw [suspends] at begins
    have only : OnlyCircuit c s (makeBreak w c r i b) :=
      ((modSender_only s c _).trans (modSender_only _ c _)).trans (makeBreak_only w c r i b)
    refine ⟨_, exec_characterSent_eq high breaks, only, ?_⟩
    rw [made]
    exact ⟨rfl, begins.chain, begins.carried, begins.state, phase, begins.noBreak, begins.counters.2.2, column⟩
  · rintro s r f p x y ref rfl prelude rfl
    simp only [← prelude_eq]
    refine ⟨(beginRecord_begins s r p x).carried, (beginRecord_begins s r p x).state, fun resume => ?_, fun o resume => ?_⟩
    · rw [beginRecord_starts p x ref resume]
      refine ⟨rfl, rfl, rfl, fun h composed => ?_, fun composed => ?_⟩
      · simp only [composed, Option.getD_some]
      · simp only [composed, Option.getD_none]
    · rw [beginRecord_resumes p x ref resume]
      exact ⟨congrArg (_ ++ ·) (resumeLine_eq s f), rfl, rfl, rfl, rfl⟩

/-! ### Reports (R138, R144, R145) -/

section Reports

variable {s a : State} {c : CircuitNo} {g : Sending}

theorem reportSent_takesNext (phase : a.circuits[c].sender.phase = .report) (uncut : a.circuits[c].sender.cutTold = none)
    (more : a.circuits[c].sender.reportPos < (oldestReport a).length) : reportSent a c = takeNext a c := by
  simp only [reportSent, phase, uncut, reduceCtorEq, if_false, ne_eq, not_true_eq_false, if_neg (Nat.not_le.mpr more)]

theorem reportSent_finishes (phase : a.circuits[c].sender.phase = .report) (uncut : a.circuits[c].sender.cutTold = none)
    (past : (oldestReport a).length ≤ a.circuits[c].sender.reportPos) :
    reportSent a c = select (reportLeaves (modSender a c Sender.bare)) c := by
  simp only [reportSent, phase, uncut, reduceCtorEq, if_false, ne_eq, not_true_eq_false, if_pos past]

theorem reportSent_cuts {line : CutLine} (phase : a.circuits[c].sender.phase = .report)
    (told : a.circuits[c].sender.cutTold = some line) : reportSent a c = startCut a c := by
  simp only [reportSent, phase, told, reduceCtorEq, if_false, ne_eq, not_false_eq_true, if_true]

theorem reportSent_cut (phase : a.circuits[c].sender.phase = .cut) (tail : a.circuits[c].sender.tail = []) :
    reportSent a c = select (modSender a c Sender.bare) c := by
  simp only [reportSent, phase, tail, if_true]

/-- The sender made bare after a character sent keeps its column. -/
theorem sentOn_bare (s : State) (c : CircuitNo) (g : Sending) :
    modSender (sentOn s c g) c Sender.bare = modSender s c fun x => { x.bare with column := columnAfter g x } :=
  modSender_modSender s c _ _

/-- R141: outside BODY a character sent begins no line of the version. -/
theorem afterSent_unbodied (unbodied : g.phase ≠ .body) (x : Sender) :
    afterSent g x = { x with sending := none, column := columnAfter g x } := by
  unfold afterSent
  rw [if_neg (fun e : g.char = houseNL ∧ _ => unbodied e.2)]
  rfl

/-- A character is sent in the phase in which it was taken. -/
theorem takeNext_phase {q : Sending} (still : s.circuits[c].sender.sending = none)
    (sends : (takeNext s c).circuits[c].sender.sending = some q) : q.phase = s.circuits[c].sender.phase := by
  unfold takeNext at sends
  dsimp only at sends
  split at sends
  · exact nomatch still.symm.trans sends
  · next h y next =>
    have phase : y.phase = s.circuits[c].sender.phase := (congrArg Sender.phase (nextChar_untaken next) :)
    split at sends
    · rw [modSender_circuit] at sends
      cases sends
      rfl
    · rw [modSender_circuit] at sends
      cases sends
      exact phase

/-- R150 step 3: off column 0 the line told begins with an NL of its own. -/
theorem startCut_sends {line : CutLine} {q : Sending} (told : a.circuits[c].sender.cutTold = some line)
    (still : a.circuits[c].sender.sending = none) (sends : (startCut a c).circuits[c].sender.sending = some q) :
    q.phase = .cut ∧ (a.circuits[c].sender.column ≠ 0 →
      q.char = houseNL ∧ (startCut a c).circuits[c].sender.tail = cutLineText line) := by
  obtain rfl : line = a.circuits[c].sender.cutTold.getD .storeCut := by rw [told]; rfl
  let z := modSender a c fun x =>
    { x with
      phase := .cut, breakPending := false, lead := [], gap := [], header := []
      tail := freshLine x.column ++ cutLineText (x.cutTold.getD .storeCut) }
  have circuit : z.circuits[c].sender = { a.circuits[c].sender with
      phase := .cut, breakPending := false, lead := [], gap := [], header := []
      tail := freshLine a.circuits[c].sender.column ++ cutLineText (a.circuits[c].sender.cutTold.getD .storeCut) } := by
    rw [modSender_circuit]
  have starts : startCut a c = takeNext z c := rfl
  rw [starts] at sends ⊢
  refine ⟨(takeNext_phase (by rw [circuit]; exact still) sends).trans (by rw [circuit]), fun off => ?_⟩
  have next : nextChar (carriedVersion z z.circuits[c].sender) (oldestReport z) z.circuits[c].sender =
      some (houseNL, { z.circuits[c].sender with tail := cutLineText (a.circuits[c].sender.cutTold.getD .storeCut) }) := by
    rw [circuit]
    simp only [nextChar, freshLine, if_neg off, List.singleton_append]
  have taken : takeNext z c = modSender z c fun _ => sendChar z c houseNL { z.circuits[c].sender with
      tail := cutLineText (a.circuits[c].sender.cutTold.getD .storeCut) } := by
    have plain : ¬(isAdvancing houseNL = true ∧ z.circuits[c].sender.column = z.circuits[c].desc.carriage) :=
      fun e => absurd e.1 (by decide)
    simp only [takeNext, next, if_neg plain]
  rw [taken, modSender_circuit] at sends ⊢
  cases sends
  exact ⟨rfl, rfl⟩

end Reports

/-! ### A report that leaves the buffer (R173, R184) -/

/-- The kinds among `ks` whose owed alerts are composed into the room of the report buffer. -/
def payable (s : State) (ks : List EventKind) : List EventKind :=
  (ks.filter fun k => (entryOf s k).owed).take (8 - s.mgmt.reports.length)

/-- What the owed alerts of the kinds `ks` leave when they are composed into the room: their reports, in their order, and of
the latch their owed marks. -/
structure Pays (ks : List EventKind) (s u : State) : Prop where
  rest : u = { s with
    latch := u.latch
    mgmt := { s.mgmt with reports := s.mgmt.reports ++ (payable s ks).map fun k => alertText k (entryOf s k) } }
  entries : ∀ k, entryOf u k = if k ∈ payable s ks then { entryOf s k with owed := false } else entryOf s k
  alertMode : u.latch.alertMode = s.latch.alertMode

/-- The state once the alert of kind `k`, owed, has been composed. -/
def paid (s : State) (k : EventKind) : State :=
  modMgmt (modEntry s k fun e => { e with owed := false }) fun m =>
    { m with reports := m.reports ++ [alertText k (entryOf s k)] }

/-- R184: with the report circuit's sender busy, an alert composed is a report placed and no more. -/
theorem payOwed_eq {s : State} (k : EventKind) (busy : s.circuits[s.mgmt.reportCircuit].sender.Busy) :
    payOwed s k = if (entryOf s k).owed && reportRoom s then paid s k else s := by
  have stays (w : State) (same : w.circuits = s.circuits) : offer w s.mgmt.reportCircuit = w := by
    unfold offer
    simp only [same]
    obtain state | state := busy <;> rw [state]
  unfold payOwed
  split
  · exact stays _ rfl
  · rfl

section Paying

variable {s : State} {k : EventKind} {ks : List EventKind}

theorem entryOf_paid_other {j : EventKind} (ne : j ≠ k) : entryOf (paid s k) j = entryOf s j :=
  entryOf_modEntry_other s _ ne

theorem payable_unowed (none : (entryOf s k).owed = false) : payable s (k :: ks) = payable s ks := by
  simp only [payable, List.filter_cons, none, Bool.false_eq_true, if_false]

theorem payable_full (full : reportRoom s = false) (ks : List EventKind) : payable s ks = [] := by
  have none : 8 - s.mgmt.reports.length = 0 := Nat.sub_eq_zero_of_le (Nat.not_lt.mp (of_decide_eq_false full))
  rw [payable, none, List.take_zero]

theorem payable_owed (owed : (entryOf s k).owed = true) (room : reportRoom s = true) (fresh : k ∉ ks) :
    payable s (k :: ks) = k :: payable (paid s k) ks := by
  have away {j : EventKind} (mem : j ∈ ks) : j ≠ k := fun e => fresh (e ▸ mem)
  have space : 8 - s.mgmt.reports.length = 8 - (paid s k).mgmt.reports.length + 1 := by
    have below : s.mgmt.reports.length < 8 := of_decide_eq_true room
    have longer : (paid s k).mgmt.reports.length = s.mgmt.reports.length + 1 := List.length_append
    omega
  have same : (ks.filter fun j => (entryOf (paid s k) j).owed) = ks.filter fun j => (entryOf s j).owed :=
    List.filter_congr fun j mem => by rw [entryOf_paid_other (away mem)]
  rw [payable, payable, same, List.filter_cons, if_pos owed, space, List.take_succ_cons]

theorem mem_payable {j : EventKind} (mem : j ∈ payable s ks) : j ∈ ks :=
  List.mem_of_mem_filter (List.mem_of_mem_take mem)

/-- R173, R184: the owed alerts are paid in the order of their kinds, while there is room. -/
theorem payOwed_pays (ks : List EventKind) (nodup : ks.Nodup) {s : State}
    (busy : s.circuits[s.mgmt.reportCircuit].sender.Busy) : Pays ks s (ks.foldl payOwed s) := by
  induction ks generalizing s with
  | nil =>
    have none : payable s [] = [] := List.take_nil
    refine ⟨?_, fun k => ?_, rfl⟩
    · rw [none, List.map_nil, List.append_nil]
      rfl
    · rw [none, if_neg List.not_mem_nil]
      rfl
  | cons k ks ih =>
    obtain ⟨fresh, nodup⟩ := List.nodup_cons.mp nodup
    have unpaid (same : payable s (k :: ks) = payable s ks) (stays : payOwed s k = s) :
        Pays (k :: ks) s ((k :: ks).foldl payOwed s) := by
      have later := ih nodup busy
      rw [List.foldl_cons, stays]
      exact ⟨by rw [same]; exact later.rest, by rw [same]; exact later.entries, later.alertMode⟩
    cases owed : (entryOf s k).owed with
    | false => exact unpaid (payable_unowed owed) (by rw [payOwed_eq k busy, owed]; rfl)
    | true =>
      cases room : reportRoom s with
      | false => exact unpaid (by rw [payable_full room, payable_full room]) (by rw [payOwed_eq k busy, room, owed]; rfl)
      | true =>
        have pays : payOwed s k = paid s k := by rw [payOwed_eq k busy, room, owed]; rfl
        have later := ih nodup (s := paid s k) busy
        have texts : ((payable (paid s k) ks).map fun j => alertText j (entryOf (paid s k) j)) =
            (payable (paid s k) ks).map fun j => alertText j (entryOf s j) :=
          List.map_congr_left fun j mem => by
            have away : j ≠ k := fun e => fresh (e ▸ mem_payable mem)
            rw [entryOf_paid_other away]
        rw [List.foldl_cons, pays]
        refine ⟨?_, fun j => ?_, later.alertMode⟩
        · have rest := later.rest
          rw [texts] at rest
          rw [payable_owed owed room fresh, List.map_cons, List.append_cons]
          exact rest
        · rw [later.entries, payable_owed owed room fresh]
          by_cases e : j = k
          · subst e
            rw [if_neg fun mem => fresh (mem_payable mem), if_pos List.mem_cons_self]
            exact entryOf_modEntry_same s j _
          · rw [entryOf_paid_other e]
            simp only [List.mem_cons, e, false_or]

end Paying

/-- R173, R184: a report leaves the buffer while the report circuit's sender still carries it. -/
theorem reportLeaves_pays {s : State} (busy : s.circuits[s.mgmt.reportCircuit].sender.Busy) :
    Pays allKinds (modMgmt s fun m => { m with reports := m.reports.tail }) (reportLeaves s) :=
  payOwed_pays allKinds (by decide) (s := modMgmt s fun m => { m with reports := m.reports.tail }) busy

/-- Settles O43: the four branches of `reportSent`. -/
theorem reportsFinishAndAreCut : Obligations.ReportsFinishAndAreCut := by
  unfold Obligations.ReportsFinishAndAreCut
  rintro s c g x rfl high sent unbodied carried carrying col first rfl rfl
  have circuit := sentOn_circuit s c g
  have starts := charSent_report sent carried
  refine ⟨fun h phase uncut here => ?_, fun phase uncut past reporter _ due room dueEq roomEq => ?_,
    fun cut phase told => ?_, fun phase tail m eq => ?_⟩
  · have goes : charSent s c = takeNext (sentOn s c g) c := by
      rw [starts]
      refine reportSent_takesNext ?_ ?_ ?_
      all_goals rw [circuit]
      · exact phase
      · exact uncut
      · exact (List.getElem?_eq_some_iff.mp here).1
    have next : nextChar (carriedVersion (sentOn s c g) (afterSent g s.circuits[c].sender)) (oldestReport s)
        (afterSent g s.circuits[c].sender) =
          some (h, { afterSent g s.circuits[c].sender with reportPos := s.circuits[c].sender.reportPos + 1 }) := by
      have report : (afterSent g s.circuits[c].sender).phase = .report := phase
      have there : (oldestReport s)[(afterSent g s.circuits[c].sender).reportPos]? = some h := here
      simp only [nextChar, report, there]
      rfl
    obtain ⟨folds, takes⟩ := takeNext_sentOn next
    refine ⟨fun advancing full => exec_characterSent_eq high ?_, fun fits => exec_characterSent_eq high ?_⟩
    · rw [goes, folds ⟨advancing, full⟩, sending_phase (y := afterSent g s.circuits[c].sender) phase]
      exact modSender_congr (by rw [afterSent_unbodied unbodied])
    · rw [goes, takes fits, sending_phase (y := { afterSent g s.circuits[c].sender with reportPos := _ }) phase]
      exact modSender_congr (by rw [afterSent_unbodied unbodied])
  · have ends : charSent s c = select (reportLeaves (modSender (sentOn s c g) c Sender.bare)) c := by
      rw [starts]
      refine reportSent_finishes ?_ ?_ ?_
      all_goals rw [circuit]
      · exact phase
      · exact uncut
      · exact past
    rw [sentOn_bare] at ends
    let b := modSender s c fun x => { x.bare with column := columnAfter g x }
    have state : b.circuits[c].sender.state = .carrying := by rw [modSender_circuit]; exact carrying
    have pays := reportLeaves_pays (s := b) (.inl (reporter ▸ state))
    have chosen : payable (modMgmt b fun m => { m with reports := m.reports.tail }) allKinds = due.take room := by
      rw [dueEq, roomEq]
      rfl
    have selecting : (reportLeaves b).circuits[c].sender.state ≠ .pausing := by
      rw [reportLeaves_busy (.inl state), state]
      exact nofun
    generalize reportLeaves b = v at ends pays selecting
    obtain ⟨rest, entries, alertMode⟩ := pays
    have latch := (select_only v c).latch
    have entry (k : EventKind) : entryOf (select v c) k = entryOf v k := by simp only [entryOf, latch]
    rw [chosen] at rest entries
    refine ⟨select v c, exec_characterSent_eq high ends, fun k => (entry k).trans (entries k), ?_, fun m eq => ?_⟩
    · rw [latch]
      exact alertMode
    · have same : v = m := by
        rw [eq, latch]
        exact rest
      rw [← same]
      exact select_changed selecting
  · have cuts : charSent s c = startCut (sentOn s c g) c := by
      rw [starts]
      refine reportSent_cuts (line := cut) ?_ ?_
      all_goals rw [circuit]
      · exact phase
      · exact told
    have sends := @startCut_sends (sentOn s c g) c cut
    obtain ⟨y, made, phase, -, still, state, column⟩ := startCut_circuit (sentOn s c g) c
    rw [circuit] at made still state column sends
    rw [made] at sends
    refine ⟨_, exec_characterSent_eq high cuts, (modSender_only s c _).trans (startCut_only _ c), ?_⟩
    rw [made]
    exact ⟨phase, still.trans carried, state.trans carrying, column, fun q sending => sends told rfl sending⟩
  · subst eq
    have ends : charSent s c = select (modSender (sentOn s c g) c Sender.bare) c := by
      rw [starts]
      refine reportSent_cut ?_ ?_
      all_goals rw [circuit]
      · exact phase
      · exact tail
    rw [sentOn_bare] at ends
    refine ⟨_, exec_characterSent_eq high ends, select_changed ?_⟩
    rw [modSender_circuit]
    exact fun e => nomatch carrying.symm.trans e

end Sys2Proof.Machine
